-- ==== Sys2Proof/Word.lean ====
section
/-! DEFINITION. The word types of the AIS6 payload armorer: 32-bit registers (R5) and 8-bit characters (R36). -/

namespace Sys2Proof

/-- A register value or bus word: the spec's `u32` (R5, R8). -/
abbrev Word := BitVec 32

/-- One character of CBUF (R36). -/
abbrev Byte := BitVec 8

end Sys2Proof
end

