-- ==== Sys2Proof/Syntax.lean ====
section
/-! DEFINITION. The commands of AIS6-CMD version 1 (R2), one constructor per row of spec/opcode_table.json. A command word
holds no operand: the operands stand in ARG0..ARG2 (R92). -/

namespace Sys2Proof

/-- The ten commands of R93, and ILLEGAL for every other command word (R94, R95). -/
inductive Instr where
  /-- RDU: read an unsigned field (R111). -/
  | rdu
  /-- RDS: read a signed field (R112). -/
  | rds
  /-- RDTXT: read 6-bit text (R114). -/
  | rdtxt
  /-- WRU: pack an unsigned field (R121). -/
  | wru
  /-- WRS: pack a signed field (R122). -/
  | wrs
  /-- WRTXT: pack 6-bit text (R123). -/
  | wrtxt
  /-- ARMDEC: payload characters to bits (R141). -/
  | armdec
  /-- ARMENC: bits to payload characters (R150). -/
  | armenc
  /-- PARSE: parse a sentence and verify its checksum (R161). -/
  | parse
  /-- CKSUM: XOR checksum of a byte range (R170). -/
  | cksum
  /-- ILLEGAL: the whole command word, which is none of the ten (R95). -/
  | illegal (w : Word)
  deriving DecidableEq, Repr

end Sys2Proof
end

