-- ==== Sys2Proof/WellFormed.lean ====
section
/-! DEFINITION. Which terms of Instr stand for a command word: every named command does, and an illegal command does
when its word is none of the ten assigned words (R93, R95). -/

namespace Sys2Proof

/-- The ten assigned command words, in the order of R93. -/
def assignedWords : List Word :=
  [0x00000010, 0x00000011, 0x00000012, 0x00000018, 0x00000019, 0x0000001A, 0x00000020, 0x00000021, 0x00000030, 0x00000031]

/-- An instruction is well formed when its word is not another command's (R94: a word is illegal only if it equals none
of the ten). -/
def Instr.wellFormed : Instr → Bool
  | .rdu | .rds | .rdtxt | .wru | .wrs | .wrtxt | .armdec | .armenc | .parse | .cksum => true
  | .illegal w => !assignedWords.contains w

end Sys2Proof
end

