-- ==== Sys2Proof/Decode.lean ====
section
/-! DEFINITION. Command words to commands and back (R90, R91, R93, R94), and the host's view of the decoder. -/

namespace Sys2Proof

/-- Decode one command word (R94): total on every word; a word outside the table of R93, also one whose bits 31:8 are
not all 0 (R90), decodes to ILLEGAL with the whole word kept. -/
def decode (w : Word) : Instr :=
  if w = 0x00000010 then .rdu
  else if w = 0x00000011 then .rds
  else if w = 0x00000012 then .rdtxt
  else if w = 0x00000018 then .wru
  else if w = 0x00000019 then .wrs
  else if w = 0x0000001A then .wrtxt
  else if w = 0x00000020 then .armdec
  else if w = 0x00000021 then .armenc
  else if w = 0x00000030 then .parse
  else if w = 0x00000031 then .cksum
  else .illegal w

/-- The opcode of a command, the OPC field of format C (R90, R93); none for ILLEGAL. -/
def opcode : Instr → Option Byte
  | .rdu => some 0x10
  | .rds => some 0x11
  | .rdtxt => some 0x12
  | .wru => some 0x18
  | .wrs => some 0x19
  | .wrtxt => some 0x1A
  | .armdec => some 0x20
  | .armenc => some 0x21
  | .parse => some 0x30
  | .cksum => some 0x31
  | .illegal _ => none

/-- The command word of an instruction: its opcode in bits 7:0 and 0 in bits 31:8 (R90); an illegal command is its word. -/
def encode (i : Instr) : Word :=
  match i with
  | .illegal w => w
  | i => (0 : BitVec 24) ++ (opcode i).getD 0

/-- Why bits given from outside are no command word. -/
inductive DecodeRefusal where
  /-- More than the 32 bits of a command word (R91): there is no longer form. Raised by decodeBits only; safe. -/
  | longerThanAWord
  deriving DecidableEq, Repr

/-- Decode an instruction given as `nbits` bits of the number `w`, every bit above them 0; refused by name when that is
longer than a command word (R91). -/
def decodeBits (nbits w : Nat) : Except DecodeRefusal Instr :=
  if 32 < nbits then .error .longerThanAWord else .ok (decode (BitVec.ofNat 32 (w % 2 ^ nbits)))

/-- The instruction the decoder reads from a row of the opcode table. -/
def decodeTableWord (nbits w : Nat) : Option Instr :=
  match decodeBits nbits w with
  | .ok i => some i
  | .error _ => none

end Sys2Proof
end

