-- ==== Sys2Proof/Config.lean ====
section
/-! DEFINITION. The fixed parameters of this hardware (R6) and the values its spec leaves open, as constants without a body. -/

namespace Sys2Proof.Config

/-- CBUF_BYTES: the size of the character buffer in bytes (R6). -/
def cbufBytes : Nat := 256

/-- BBUF_BITS: the size of the bit buffer in bits (R6). -/
def bbufBits : Nat := 2048

/-- MAX_FIELD: the longest integer field of RDU, RDS, WRU and WRS (R6). -/
def maxField : Nat := 32

/-- The offset of the CBUF window (R65, R66). -/
def cbufBase : Nat := 0x400

/-- The offset of the BBUF window (R66, R67). -/
def bbufBase : Nat := 0x800

/-- AIS6_BASE: where the platform places the window, an OPEN parameter (R72, I5). Free: no value of it is known. -/
opaque ais6Base : Nat

/-- The bus address of a window offset, `AIS6_BASE + OFF` of R96. -/
def busAddress (off : BitVec 12) : Nat := ais6Base + off.toNat

/-- LATENCY: how many turns of the host pass between acceptance and engine step, an OPEN parameter (R7, I4).
Free: applied to the draw counter of State, so that each acceptance has a latency of its own, any natural number. -/
opaque latency : Nat → Nat

/-- What a read of BLEN, ERRINFO, RES0..RES3, CBUF or BBUF returns while a command is pending (R63, I3).
Free: applied to the draw counter of State, so that every such read is a fresh draw. -/
opaque busyRead : Nat → Word

/-- What a CBUF byte that nothing has written since reset holds (R231, I2): of the number of resets so far and the byte
address. Free: fixed once for each reset, so that the cell "holds that value until it is written". -/
opaque unwrittenByte : Nat → Nat → Byte

/-- What a BBUF bit that nothing has written since reset holds (R231, I2): of the number of resets so far and the index. -/
opaque unwrittenBit : Nat → Nat → Bool

end Sys2Proof.Config
end

