-- ==== Sys2Proof/Machine/Codec.lean ====
section
/-! DEFINITION. The pure functions of the spec's notation: bit strings and field values (R10 - R12), the character tables
(R13 - R16), the text trim (R113), the XOR checksum and its hex digits (R163, R170, R171). -/

namespace Sys2Proof.Machine

/-- The value of a bit string, its first bit the most significant (R11). -/
def natOfBits (bs : List Bool) : Nat := bs.foldl (fun v b => 2 * v + b.toNat) 0

/-- `bits_L(w)`: the L-bit string of w, most significant bit first (R10). -/
def bitsOfNat (L w : Nat) : List Bool := (List.range L).map fun k => w.testBit (L - 1 - k)

/-- The signed value of a bit string (R12): the first bit, if there is one, is the sign. -/
def intOfBits (bs : List Bool) : Int :=
  if bs.head? = some true then (natOfBits bs : Int) - 2 ^ bs.length else natOfBits bs

/-- `zext_32` (R8). -/
def zext32 (v : Nat) : Word := BitVec.ofNat 32 v

/-- `sext_32` (R8): the 32-bit two's-complement form, `v mod 2^32`. -/
def sext32 (v : Int) : Word := BitVec.ofInt 32 v

/-- `chr6`: a 6-bit value to its character (R13). -/
def chr6 (v : Nat) : Byte := BitVec.ofNat 8 (if v ≤ 31 then v + 64 else v)

/-- The byte has a 6-bit code: it is in 0x20..0x5F (R14, R123). -/
def isMapped (c : Byte) : Bool := 0x20 ≤ c.toNat && c.toNat ≤ 0x5F

/-- `inv6`: a character to its 6-bit code, 0 for any unmapped one (R14). -/
def inv6 (c : Byte) : Nat :=
  if 0x40 ≤ c.toNat ∧ c.toNat ≤ 0x5F then c.toNat - 64
  else if 0x20 ≤ c.toNat ∧ c.toNat ≤ 0x3F then c.toNat
  else 0

/-- `upper`: ASCII a..z to A..Z, every other byte unchanged (R14). -/
def upper (c : Byte) : Byte := if 0x61 ≤ c.toNat ∧ c.toNat ≤ 0x7A then c - 0x20 else c

/-- `armor`: a 6-bit value to its payload character (R15). -/
def armor (v : Nat) : Byte := BitVec.ofNat 8 (if v ≤ 39 then v + 48 else v + 56)

/-- The byte is in 0x30..0x77, where the de-armor formula gives a 6-bit value (R16, R141). -/
def isArmor (c : Byte) : Bool := 0x30 ≤ c.toNat && c.toNat ≤ 0x77

/-- `unarmor`: a payload character to its 6-bit value, for a byte in 0x30..0x77 (R16). -/
def unarmor (c : Byte) : Nat := if c.toNat - 48 > 40 then c.toNat - 48 - 8 else c.toNat - 48

/-- `trim6` (R113): the trailing `@` run first, then leading spaces, then trailing spaces. -/
def trim6 (t : List Byte) : List Byte :=
  (((t.rdropWhile (· == 0x40)).dropWhile (· == 0x20)).rdropWhile (· == 0x20))

/-- The XOR of a list of bytes (R163, R170). -/
def xorBytes (bs : List Byte) : Byte := bs.foldl (· ^^^ ·) 0

/-- `hexdig`: the uppercase hex digit of a value 0..15, as a character (R170, R171). -/
def hexdig (h : Nat) : Nat := if h ≤ 9 then 0x30 + h else 0x37 + h

/-- `hexval`: the value of an uppercase hex digit (R161). -/
def hexval (c : Byte) : Nat := if c.toNat ≤ 0x39 then c.toNat - 0x30 else c.toNat - 0x37

/-- `digit` of the line grammar (R160). -/
def isDigit (c : Byte) : Bool := 0x30 ≤ c.toNat && c.toNat ≤ 0x39

/-- `hexu` of the line grammar (R160): a digit or an uppercase hex letter. -/
def isHexu (c : Byte) : Bool := isDigit c || (0x41 ≤ c.toNat && c.toNat ≤ 0x46)

/-- `pchar` of the line grammar (R160): 0x21..0x7E except `,` and `*`. -/
def isPchar (c : Byte) : Bool := 0x21 ≤ c.toNat && c.toNat ≤ 0x7E && c != 0x2C && c != 0x2A

/-- `eol` of the line grammar (R160): CR or LF. -/
def isEol (c : Byte) : Bool := c == 0x0D || c == 0x0A

/-- The value of a digit character. -/
def digitVal (c : Byte) : Nat := c.toNat - 0x30

end Sys2Proof.Machine
end

