-- ==== Sys2Proof/Machine/State.lean ====
section
/-! DEFINITION. The state of one instance of the block (R38, R39) as plain data, the environment's inputs to it, and the
state after reset (R230, R231). -/

namespace Sys2Proof.Machine

/-- A buffer as the list of its written cells, addresses strictly rising; an unlisted cell is "unwritten" (R39). -/
abbrev Memory (α : Type) := List (Nat × α)

/-- The error codes of R200. The reserved codes 8..15 are never produced (I8) and have no name here. -/
inductive ErrCode where
  /-- 0 NONE: no error. -/
  | noError
  /-- 1 ILLEGAL: the command word is none of the ten. -/
  | illegal
  /-- 2 BADLEN: field length over MAX_FIELD. -/
  | badLen
  /-- 3 CBUF_RANGE: a CBUF region extends past CBUF_BYTES. -/
  | cbufRange
  /-- 4 BIT_RANGE: a bit field read extends past BLEN. -/
  | bitRange
  /-- 5 BBUF_FULL: the bits to write extend past BBUF_BITS. -/
  | bbufFull
  /-- 6 BADFILL: fill over 6n. -/
  | badFill
  /-- 7 BADARMOR: a payload byte outside 0x30..0x77. -/
  | badArmor
  deriving DecidableEq, Repr

/-- The pending-command latch P (R32): the command word, the three operands and CTRL.CKEN at acceptance. -/
structure Pending where
  word : Word
  arg0 : Word
  arg1 : Word
  arg2 : Word
  cken : Bool
  deriving DecidableEq, Repr

/-- What an aligned window offset names (R20, R64 - R67). -/
inductive Location where
  | id
  | version
  | cfg
  | ctrl
  | status
  | cmd
  | blen
  | errinfo
  | arg0
  | arg1
  | arg2
  | res0
  | res1
  | res2
  | res3
  /-- Word `k` of the CBUF window (R65). -/
  | cbufWord (k : Nat)
  /-- Word `k` of the BBUF window (R67). -/
  | bbufWord (k : Nat)
  /-- An offset no rule assigns (R64). -/
  | reserved
  deriving DecidableEq, Repr

/-- What the outside world does to the block in one of its turns (R18, R60, R61, R230). The offset has 12 bits (R6), so
every offset is inside the window; `lanes` are the byte enables, all four set in a 32-bit access (R61). -/
inductive BusEvent where
  /-- No access in this turn. -/
  | idle
  /-- A bus read. -/
  | read (off : BitVec 12) (lanes : BitVec 4)
  /-- A bus write. -/
  | write (off : BitVec 12) (lanes : BitVec 4) (w : Word)
  /-- The reset input is asserted (R230, R232). -/
  | reset
  deriving DecidableEq, Repr

/-- The two bus responses (R60). -/
inductive BusStatus where
  | okay
  | buserr
  deriving DecidableEq, Repr

/-- The answer to one host access: the response and, for a read, the data (R60). -/
structure BusResponse where
  status : BusStatus
  data : Option Word
  deriving DecidableEq, Repr

/-- The state of one instance. `ID`, `VERSION` and `CFG` are constants (R39), STATUS.BUSY is `pending.isSome` (R39: P is
"some iff busy") and `irq` is a function of the state (R34): see Machine/Flags.lean. The fields from `wait` on are the
model's own: the free values' counters and the environment. -/
structure State where
  /-- CTRL.CKEN (R24). -/
  cken : Bool
  /-- CTRL.IE (R24). -/
  ie : Bool
  /-- STATUS.DONE (R25). -/
  done : Bool
  /-- STATUS.ERR (R25). -/
  err : Bool
  /-- STATUS.WRAP (R25). -/
  wrap : Bool
  /-- STATUS.OVR (R25). -/
  ovr : Bool
  /-- STATUS.ERRCODE (R25, R200). -/
  errcode : ErrCode
  /-- ERRINFO (R29). -/
  errinfo : Word
  /-- CMD: the last accepted command word (R27). -/
  cmd : Word
  /-- BLEN: the length in bits of the current bit string, at most BBUF_BITS (R28). -/
  blen : Nat
  /-- ARG0 (R30). -/
  arg0 : Word
  /-- ARG1 (R30). -/
  arg1 : Word
  /-- ARG2 (R30). -/
  arg2 : Word
  /-- RES0 (R31). -/
  res0 : Word
  /-- RES1 (R31). -/
  res1 : Word
  /-- RES2 (R31). -/
  res2 : Word
  /-- RES3 (R31). -/
  res3 : Word
  /-- P, the pending-command latch (R32); none is "no command pending", the spec's own state. -/
  pending : Option Pending
  /-- CBUF (R36). -/
  cbuf : Memory Byte
  /-- BBUF (R37). -/
  bbuf : Memory Bool
  /-- Turns of the host left before the engine step of the pending command (R7). -/
  wait : Nat
  /-- Latencies of the next acceptances where the environment fixes them; once the list is empty each acceptance draws
  `Config.latency`. -/
  latencies : List Nat
  /-- How many free values have been drawn (I3, I4). -/
  draws : Nat
  /-- How many resets there have been: which draw the unwritten cells hold (I2, I12). -/
  epoch : Nat
  /-- What the outside world does next, in the order the bus delivers it (R60, R74). -/
  bus : List BusEvent
  /-- The answer to the latest host access. -/
  response : Option BusResponse
  deriving DecidableEq, Repr

/-- The spec gives the block nothing that stops it: a command that fails completes with an error code (R202 "Errors are
precise and never fatal"), and a bad host access gets a bus response (R203). So there is no fault. -/
inductive Fault where
  deriving DecidableEq, Repr

/-- Why the model gives no meaning. -/
inductive Refusal where
  /-- An arm of exec whose instruction has no meaning yet. Raised by nothing in this model; safe. -/
  | notModelled (mnemonic : String)
  deriving DecidableEq, Repr

/-- How a step or a meaning ends. -/
abbrev Result := Host.Outcome State Fault Refusal

/-- The state after reset: every register at the value of R230, the latch empty, both buffers unwritten (R231). The
model's own fields start empty. -/
def State.reset : State where
  cken := true
  ie := false
  done := false
  err := false
  wrap := false
  ovr := false
  errcode := .noError
  errinfo := 0
  cmd := 0
  blen := 0
  arg0 := 0
  arg1 := 0
  arg2 := 0
  res0 := 0
  res1 := 0
  res2 := 0
  res3 := 0
  pending := none
  cbuf := []
  bbuf := []
  wait := 0
  latencies := []
  draws := 0
  epoch := 0
  bus := []
  response := none

end Sys2Proof.Machine
end

