-- ==== Sys2Proof/Machine/Ops.lean ====
section
/-! DEFINITION. The operations every command shares: reading and writing the buffers (R17, R36, R37), appending bits
(R120), ending a command with success or with an error (R17, R202), and accepting the next one (R32). -/

namespace Sys2Proof.Machine

/-- The contents of a written cell, none for an unwritten one (R39). -/
def Memory.cell {α : Type} (m : Memory α) (a : Nat) : Option α :=
  match m with
  | [] => none
  | (b, v) :: rest => if a = b then some v else Memory.cell rest a

/-- Write one cell, keeping the addresses strictly rising. -/
def Memory.store {α : Type} (m : Memory α) (a : Nat) (v : α) : Memory α :=
  match m with
  | [] => [(a, v)]
  | (b, u) :: rest =>
    if a < b then (a, v) :: (b, u) :: rest
    else if a = b then (a, v) :: rest
    else (b, u) :: Memory.store rest a v

/-- Write consecutive cells in increasing address order. -/
def Memory.storeAll {α : Type} (m : Memory α) (a : Nat) (vs : List α) : Memory α :=
  match vs with
  | [] => m
  | v :: rest => Memory.storeAll (Memory.store m a v) (a + 1) rest

/-- Every address is at least `lo` and below `size`, and they rise strictly. -/
def Memory.wfFrom {α : Type} (lo size : Nat) (m : Memory α) : Bool :=
  match m with
  | [] => true
  | (a, _) :: rest => decide (lo ≤ a) && decide (a < size) && Memory.wfFrom (a + 1) size rest

/-- The canonical form of a buffer of `size` cells: addresses strictly rising and inside the buffer. An entry never says
what an unlisted cell says, "unwritten", so equal buffers are equal lists. -/
def Memory.wf {α : Type} (size : Nat) (m : Memory α) : Bool := Memory.wfFrom 0 size m

/-- `MemRead(CBUF, a, 1)` (R17). An unwritten byte holds its free draw (I2). -/
def State.byte (s : State) (a : Nat) : Byte := (s.cbuf.cell a).getD (Config.unwrittenByte s.epoch a)

/-- `B[i]` (R10, R17). An unwritten bit holds its free draw (I2). -/
def State.bit (s : State) (i : Nat) : Bool := (s.bbuf.cell i).getD (Config.unwrittenBit s.epoch i)

/-- The `n` bytes of CBUF from `a` on. -/
def State.readBytes (s : State) (a n : Nat) : List Byte := (List.range n).map fun k => s.byte (a + k)

/-- The `n` bits of BBUF from `i` on. -/
def State.readBits (s : State) (i n : Nat) : List Bool := (List.range n).map fun k => s.bit (i + k)

/-- `MemWrite(CBUF, a + k, 1, bs[k])` for each k in increasing order (R17). -/
def State.writeBytes (s : State) (a : Nat) (bs : List Byte) : State := { s with cbuf := s.cbuf.storeAll a bs }

/-- `B[i + k] <- bs[k]` for each k in increasing order (R17). -/
def State.writeBits (s : State) (i : Nat) (bs : List Bool) : State := { s with bbuf := s.bbuf.storeAll i bs }

/-- `BLEN <- n` (R28). -/
def State.setBlen (s : State) (n : Nat) : State := { s with blen := n }

/-- `append(x)` (R120): the bits go directly after the current bit string. -/
def State.append (s : State) (x : List Bool) : State := (s.writeBits s.blen x).setBlen (s.blen + x.length)

/-- `STATUS.WRAP <- 1` if the packed field does not hold the value; WRAP is sticky (R25, R121, R122). -/
def State.setWrapIf (s : State) (lost : Bool) : State := { s with wrap := s.wrap || lost }

/-- `complete(r0, r1, r2, r3)` (R17): the running command ends successfully. -/
def State.complete (s : State) (r0 r1 r2 r3 : Word) : State :=
  { s with
    res0 := r0, res1 := r1, res2 := r2, res3 := r3
    errinfo := 0, err := false, errcode := .noError, pending := none, done := true }

/-- `raise CmdError(code, info)` (R17, R200, R202), the block's only exception entry (R204): the results are zeroed, the
code and its detail recorded, BUSY cleared and DONE set. No buffer, BLEN or WRAP changes, and no control is transferred. -/
def State.raise (s : State) (code : ErrCode) (info : Word) : State :=
  { s with
    res0 := 0, res1 := 0, res2 := 0, res3 := 0
    errinfo := info, err := true, errcode := code, pending := none, done := true }

/-- Accepting the command word `w` (R32): CMD and the latch are written, BUSY is set, DONE, ERR and ERRCODE are cleared.
The block has no return from an error (R205): this is what clears ERR and ERRCODE. -/
def State.latchCommand (s : State) (w : Word) : State :=
  { s with
    cmd := w
    pending := some { word := w, arg0 := s.arg0, arg1 := s.arg1, arg2 := s.arg2, cken := s.cken }
    done := false, err := false, errcode := .noError }

/-- The latency of the command just accepted (R7): the environment's next one where it fixes it, else a free draw. -/
def State.drawLatency (s : State) : State :=
  match s.latencies with
  | [] => { s with wait := Config.latency s.draws, draws := s.draws + 1 }
  | n :: rest => { s with wait := n, latencies := rest }

/-- A host write of `w` to CMD while BUSY = 0 (R27, R32). -/
def State.accept (s : State) (w : Word) : State := (s.latchCommand w).drawLatency

end Sys2Proof.Machine
end

