-- ==== Sys2Proof/Machine/Flags.lean ====
section
/-! DEFINITION. The register views of the state: STATUS and its write (R25, R26), CTRL (R24), the constants (R3, R21 - R23),
BUSY and the irq output (R34). -/

namespace Sys2Proof.Machine

/-- STATUS.BUSY: a command is pending (R25, R39). -/
def State.busy (s : State) : Bool := s.pending.isSome

/-- The irq output, `STATUS.DONE ∧ CTRL.IE` at all times (R34, R210). -/
def State.irq (s : State) : Bool := s.done && s.ie

/-- The value of STATUS.ERRCODE (R200). -/
def ErrCode.number : ErrCode → Nat
  | .noError => 0
  | .illegal => 1
  | .badLen => 2
  | .cbufRange => 3
  | .bitRange => 4
  | .bbufFull => 5
  | .badFill => 6
  | .badArmor => 7

/-- STATUS as the host reads it (R25). -/
def State.statusWord (s : State) : Word :=
  BitVec.ofNat 32
    (s.busy.toNat + s.done.toNat * 2 + s.err.toNat * 4 + s.wrap.toNat * 8 + s.errcode.number * 16 + s.ovr.toNat * 256)

/-- A host write of `w` to STATUS (R26): a 1 clears DONE (bit 1), WRAP (bit 3), OVR (bit 8); every other bit is ignored. -/
def State.writeStatus (s : State) (w : Word) : State :=
  { s with
    done := s.done && !w.getLsbD 1
    wrap := s.wrap && !w.getLsbD 3
    ovr := s.ovr && !w.getLsbD 8 }

/-- CTRL as the host reads it (R24). -/
def State.ctrlWord (s : State) : Word := BitVec.ofNat 32 (s.cken.toNat + s.ie.toNat * 2)

/-- A host write of `w` to CTRL (R24): bits 31:2 are ignored. -/
def State.writeCtrl (s : State) (w : Word) : State := { s with cken := w.getLsbD 0, ie := w.getLsbD 1 }

/-- ID: ASCII "AIS6" (R3, R21). -/
def idWord : Word := 0x41495336

/-- VERSION: command set version 1 (R3, R22). -/
def versionWord : Word := 0x00000001

/-- CFG: CBUF_BYTES in bits 15:0 and BBUF_BITS in bits 31:16 (R23). -/
def cfgWord : Word := BitVec.ofNat 32 (Config.cbufBytes + Config.bbufBits * 2 ^ 16)

end Sys2Proof.Machine
end

