-- ==== Sys2Proof/Machine/Bus.lean ====
section
/-! DEFINITION. The host's side of the block: the register map (R20), reads and writes of a window offset while idle and
while a command is pending (R60 - R67), reset (R230 - R232), and one turn of the host. -/

namespace Sys2Proof.Machine

/-- The register map (R20); the two buffer windows are not in it. -/
def registerMap : List (Nat × Location) :=
  [(0x000, .id), (0x004, .version), (0x008, .cfg), (0x00C, .ctrl), (0x010, .status), (0x014, .cmd), (0x018, .blen),
   (0x01C, .errinfo)]
  ++ [(0x020, .arg0), (0x024, .arg1), (0x028, .arg2), (0x030, .res0), (0x034, .res1), (0x038, .res2), (0x03C, .res3)]

/-- What an aligned offset of the two buffer windows names; beyond the buffers it is reserved (R64 - R67). -/
def windowLocation (off : Nat) : Location :=
  if Config.cbufBase ≤ off ∧ off < Config.cbufBase + Config.cbufBytes then .cbufWord ((off - Config.cbufBase) / 4)
  else if Config.bbufBase ≤ off ∧ off < Config.bbufBase + Config.bbufBits / 8 then .bbufWord ((off - Config.bbufBase) / 4)
  else .reserved

/-- What an aligned offset names (R20, R64 - R67). -/
def locate (off : BitVec 12) : Location := (registerMap.lookup off.toNat).getD (windowLocation off.toNat)

/-- Word `k` of the CBUF window (R65): the lowest-addressed byte in the least significant lane. -/
def State.cbufWordAt (s : State) (k : Nat) : Word :=
  s.byte (4 * k + 3) ++ s.byte (4 * k + 2) ++ s.byte (4 * k + 1) ++ s.byte (4 * k)

/-- A host write to word `k` of the CBUF window (R65): all four bytes. -/
def State.writeCbufWord (s : State) (k : Nat) (w : Word) : State :=
  s.writeBytes (4 * k) ((List.range 4).map fun j => w.extractLsb' (8 * j) 8)

/-- Word `k` of the BBUF window (R67): the lowest-indexed bit is the most significant. -/
def State.bbufWordAt (s : State) (k : Nat) : Word := zext32 (natOfBits (s.readBits (32 * k) 32))

/-- A host write to word `k` of the BBUF window (R67); BLEN is unchanged. -/
def State.writeBbufWord (s : State) (k : Nat) (w : Word) : State := s.writeBits (32 * k) (bitsOfNat 32 w.toNat)

/-- The value held at a location (R20 - R31, R64, R65, R67). -/
def State.valueAt (s : State) : Location → Word
  | .id => idWord
  | .version => versionWord
  | .cfg => cfgWord
  | .ctrl => s.ctrlWord
  | .status => s.statusWord
  | .cmd => s.cmd
  | .blen => zext32 s.blen
  | .errinfo => s.errinfo
  | .arg0 => s.arg0
  | .arg1 => s.arg1
  | .arg2 => s.arg2
  | .res0 => s.res0
  | .res1 => s.res1
  | .res2 => s.res2
  | .res3 => s.res3
  | .cbufWord k => s.cbufWordAt k
  | .bbufWord k => s.bbufWordAt k
  | .reserved => 0

/-- The locations whose reads are unspecified while a command is pending (R63). -/
def Location.hiddenWhileBusy : Location → Bool
  | .blen | .errinfo | .res0 | .res1 | .res2 | .res3 | .cbufWord _ | .bbufWord _ => true
  | .id | .version | .cfg | .ctrl | .status | .cmd | .arg0 | .arg1 | .arg2 | .reserved => false

/-- The host's write to a location while no command is pending (R20, R24 - R32, R64, R65, R67). -/
def State.writeIdle (s : State) (l : Location) (w : Word) : State :=
  match l with
  | .ctrl => s.writeCtrl w
  | .status => s.writeStatus w
  | .cmd => s.accept w
  | .blen => s.setBlen (min w.toNat Config.bbufBits)
  | .arg0 => { s with arg0 := w }
  | .arg1 => { s with arg1 := w }
  | .arg2 => { s with arg2 := w }
  | .cbufWord k => s.writeCbufWord k w
  | .bbufWord k => s.writeBbufWord k w
  | .id | .version | .cfg | .errinfo | .res0 | .res1 | .res2 | .res3 | .reserved => s

/-- The host's write to a location while a command is pending (R62): only STATUS takes it, any other write is dropped and
sets OVR. -/
def State.writeBusy (s : State) (l : Location) (w : Word) : State :=
  match l with
  | .status => s.writeStatus w
  | .id | .version | .cfg | .ctrl | .cmd | .blen | .errinfo | .arg0 | .arg1 | .arg2 | .res0 | .res1 | .res2 | .res3
  | .cbufWord _ | .bbufWord _ | .reserved => { s with ovr := true }

/-- The block's answer to the latest access. -/
def State.respond (s : State) (r : BusResponse) : State := { s with response := some r }

/-- Only aligned accesses of all four byte lanes are supported (R61). -/
def supported (off : BitVec 12) (lanes : BitVec 4) : Bool := off.toNat % 4 == 0 && lanes == 0xF

/-- `HostRead(off)` (R60, R61, R63). While a command is pending a hidden location gives a fresh free value. -/
def State.hostRead (s : State) (off : BitVec 12) (lanes : BitVec 4) : State :=
  if !supported off lanes then s.respond { status := .buserr, data := some 0 }
  else if s.busy && (locate off).hiddenWhileBusy then
    { s with draws := s.draws + 1 }.respond { status := .okay, data := some (Config.busyRead s.draws) }
  else s.respond { status := .okay, data := some (s.valueAt (locate off)) }

/-- `HostWrite(off, w)` (R60 - R62). -/
def State.hostWrite (s : State) (off : BitVec 12) (lanes : BitVec 4) (w : Word) : State :=
  if !supported off lanes then s.respond { status := .buserr, data := none }
  else (if s.busy then s.writeBusy (locate off) w else s.writeIdle (locate off) w).respond { status := .okay, data := none }

/-- The reset input is asserted (R230 - R232): every register takes its reset value, a pending command is abandoned, and
every buffer cell is unspecified again, under a new draw. The environment's inputs stay. -/
def State.applyReset (s : State) : State :=
  { State.reset with latencies := s.latencies, draws := s.draws, epoch := s.epoch + 1, bus := s.bus }

/-- What one event of the outside world does. -/
def State.deliver (s : State) (e : BusEvent) : State :=
  match e with
  | .idle => s
  | .read off lanes => s.hostRead off lanes
  | .write off lanes w => s.hostWrite off lanes w
  | .reset => s.applyReset

/-- One turn of the host: the pending command's latency runs down by one, and the next event, if any, is delivered. -/
def State.hostTurn (s : State) : State :=
  match s.bus with
  | [] => { s with wait := s.wait - 1 }
  | e :: rest => { s with wait := s.wait - 1, bus := rest }.deliver e

/-- The engine's turn has come: a command is pending and its latency is over (R7, R33). -/
def State.engineDue (s : State) : Bool := s.busy && s.wait == 0

end Sys2Proof.Machine
end

