-- ==== Sys2Proof/Machine/Operands.lean ====
section
/-! DEFINITION. The operands of a command (R92), the field reads (R11, R12), and the range checks of the command rules, on
unbounded naturals so that no sum wraps (R8). -/

namespace Sys2Proof.Machine

/-- The latch the engine reads its operands from (R32, R92). With no command pending the engine has no step (R33); a
meaning called in such a state reads what an acceptance in it would latch. -/
def State.latched (s : State) : Pending :=
  s.pending.getD { word := s.cmd, arg0 := s.arg0, arg1 := s.arg1, arg2 := s.arg2, cken := s.cken }

/-- ARG0 as latched, a `u32` natural (R92). -/
def State.op0 (s : State) : Nat := s.latched.arg0.toNat

/-- ARG1 as latched, a `u32` natural (R92). -/
def State.op1 (s : State) : Nat := s.latched.arg1.toNat

/-- ARG2 as latched, a `u32` natural (R92). -/
def State.op2 (s : State) : Nat := s.latched.arg2.toNat

/-- `s32(ARG0)` as latched, the value operand of WRS (R8, R92). -/
def State.op0Signed (s : State) : Int := s.latched.arg0.toInt

/-- CTRL.CKEN as latched (R32, R161). -/
def State.latchedCken (s : State) : Bool := s.latched.cken

/-- `ufield(i, L)` (R11). -/
def State.ufield (s : State) (i L : Nat) : Nat := natOfBits (s.readBits i L)

/-- `sfield(i, L)` (R12). -/
def State.sfield (s : State) (i L : Nat) : Int := intOfBits (s.readBits i L)

/-- The CBUF region `CBUF[a .. a+n-1]` extends past CBUF_BYTES: CBUF_RANGE (R200). -/
def pastCbuf (a n : Nat) : Bool := decide (Config.cbufBytes < a + n)

/-- The field length exceeds MAX_FIELD: BADLEN (R200). -/
def overlong (L : Nat) : Bool := decide (Config.maxField < L)

/-- The field of `L` bits at `i` extends past BLEN: BIT_RANGE (R200). -/
def State.pastBlen (s : State) (i L : Nat) : Bool := decide (s.blen < i + L)

/-- `n` bits do not fit after bit `i`: BBUF_FULL (R200). -/
def pastBbuf (i n : Nat) : Bool := decide (Config.bbufBits < i + n)

end Sys2Proof.Machine
end

