-- ==== Sys2Proof/Machine/Armor.lean ====
section
/-! DEFINITION. The armoring family (R140): ARMDEC and ARMENC. -/

namespace Sys2Proof.Machine

/-- ERRINFO of BADARMOR (R200): the offset in bits 15:0 and the byte in bits 23:16. -/
def badArmorInfo (k : Nat) (c : Byte) : Word := BitVec.ofNat 32 (k ||| c.toNat <<< 16)

/-- The offset and value of the first payload byte outside 0x30..0x77 (R141). -/
def firstBadArmor (k : Nat) (cs : List Byte) : Option (Nat × Byte) :=
  match cs with
  | [] => none
  | c :: rest => if isArmor c then firstBadArmor (k + 1) rest else some (k, c)

/-- ARMDEC (R141): a = ARG0, n = ARG1, f = ARG2. The bit string is replaced from bit 0; dropped fill bits stay in BBUF. -/
def execArmdec (s : State) : Result :=
  if pastCbuf s.op0 s.op1 then .next (s.raise .cbufRange 0)
  else if pastBbuf 0 (6 * s.op1) then .next (s.raise .bbufFull 0)
  else if 6 * s.op1 < s.op2 then .next (s.raise .badFill 0)
  else
    let cs := s.readBytes s.op0 s.op1
    match firstBadArmor 0 cs with
    | some (k, c) => .next (s.raise .badArmor (badArmorInfo k c))
    | none =>
      let n := 6 * s.op1 - s.op2
      .next (((s.writeBits 0 (cs.flatMap fun c => bitsOfNat 6 (unarmor c))).setBlen n).complete (zext32 n) 0 0 0)

/-- The `L` bits from bit `i` on in 6-bit groups, the last padded on the right with zeros (R150): the characters of `c`
groups. A bit at or past `i + L` is not read. -/
def State.armorText (s : State) (i L c : Nat) : List Byte :=
  (List.range c).map fun k => armor (natOfBits ((List.range 6).map fun j =>
    if 6 * k + j < L then s.bit (i + 6 * k + j) else false))

/-- ARMENC (R150): d = ARG0, s = ARG1, L = ARG2. -/
def execArmenc (s : State) : Result :=
  let c := (s.op2 + 5) / 6
  if pastCbuf s.op0 c then .next (s.raise .cbufRange 0)
  else if s.pastBlen s.op1 s.op2 then .next (s.raise .bitRange 0)
  else .next ((s.writeBytes s.op0 (s.armorText s.op1 s.op2 c)).complete (zext32 c) (zext32 (6 * c - s.op2)) 0 0)

end Sys2Proof.Machine
end

