-- ==== Sys2Proof/Machine/BitField.lean ====
section
/-! DEFINITION. The bit-field family (R110): RDU, RDS, RDTXT, WRU, WRS, WRTXT. Checks come first, in the order of R201. -/

namespace Sys2Proof.Machine

/-- RDU (R111): s = ARG0, L = ARG1. -/
def execRdu (s : State) : Result :=
  if overlong s.op1 then .next (s.raise .badLen 0)
  else if s.pastBlen s.op0 s.op1 then .next (s.raise .bitRange 0)
  else .next (s.complete (zext32 (s.ufield s.op0 s.op1)) 0 0 0)

/-- RDS (R112): s = ARG0, L = ARG1. -/
def execRds (s : State) : Result :=
  if overlong s.op1 then .next (s.raise .badLen 0)
  else if s.pastBlen s.op0 s.op1 then .next (s.raise .bitRange 0)
  else .next (s.complete (sext32 (s.sfield s.op0 s.op1)) 0 0 0)

/-- The number of whole 6-bit groups RDTXT decodes (R114): "Decoding stops early (silently) if fewer than 6 bits remain". -/
def State.textGroups (s : State) (i n : Nat) : Nat := if i ≤ s.blen then min n ((s.blen - i) / 6) else 0

/-- The characters of `g` 6-bit groups from bit `i` on (R114). -/
def State.rawText (s : State) (i g : Nat) : List Byte := (List.range g).map fun k => chr6 (s.ufield (i + 6 * k) 6)

/-- RDTXT (R114): s = ARG0, n = ARG1, d = ARG2. -/
def execRdtxt (s : State) : Result :=
  if pastCbuf s.op2 s.op1 then .next (s.raise .cbufRange 0)
  else
    let g := s.textGroups s.op0 s.op1
    let t := trim6 (s.rawText s.op0 g)
    .next ((s.writeBytes s.op2 t).complete (zext32 t.length) (zext32 g) 0 0)

/-- Packing the value `w` of `L` bits, `lost` when it is not the operand (R121, R122): WRAP, append, results. -/
def State.pack (s : State) (L w : Nat) (lost : Bool) : State :=
  ((s.setWrapIf lost).append (bitsOfNat L w)).complete (zext32 (s.blen + L)) (zext32 w) 0 0

/-- WRU (R121): v = ARG0, L = ARG1; the low L bits are packed. -/
def execWru (s : State) : Result :=
  if overlong s.op1 then .next (s.raise .badLen 0)
  else if pastBbuf s.blen s.op1 then .next (s.raise .bbufFull 0)
  else
    let w := s.op0 % 2 ^ s.op1
    .next (s.pack s.op1 w (w != s.op0))

/-- What reading an L-bit field of value `w` back as signed gives (R122). -/
def readBack (L w : Nat) : Int := if 1 ≤ L ∧ 2 ^ (L - 1) ≤ w then (w : Int) - 2 ^ L else w

/-- WRS (R122): v = s32(ARG0), L = ARG1; v mod 2^L is packed. -/
def execWrs (s : State) : Result :=
  if overlong s.op1 then .next (s.raise .badLen 0)
  else if pastBbuf s.blen s.op1 then .next (s.raise .bbufFull 0)
  else
    let w := (s.op0Signed % 2 ^ s.op1).toNat
    .next (s.pack s.op1 w (readBack s.op1 w != s.op0Signed))

/-- The `n` characters WRTXT packs (R123): the first m of the source uppercased, then `@` padding. -/
def State.paddedText (s : State) (a m n : Nat) : List Byte :=
  (List.range n).map fun k => if k < m then upper (s.byte (a + k)) else 0x40

/-- WRTXT (R123): a = ARG0, m = ARG1, n = ARG2. The `@` padding is mapped, so it adds nothing to the count. -/
def execWrtxt (s : State) : Result :=
  if pastCbuf s.op0 s.op1 then .next (s.raise .cbufRange 0)
  else if pastBbuf s.blen (6 * s.op2) then .next (s.raise .bbufFull 0)
  else
    let cs := s.paddedText s.op0 s.op1 s.op2
    let u := cs.countP fun c => !isMapped c
    .next ((s.append (cs.flatMap fun c => bitsOfNat 6 (inv6 c))).complete (zext32 (s.blen + 6 * s.op2)) (zext32 u) 0 0)

end Sys2Proof.Machine
end

