-- ==== Sys2Proof/Machine/Framer.lean ====
section
/-! DEFINITION. The framer family: PARSE (R160 - R165) and CKSUM (R170). -/

namespace Sys2Proof.Machine

/-- Where the parser stands: the offset p in the line, the byte before it, and the bytes from it on. -/
structure Cursor where
  pos : Nat
  last : Byte
  rest : List Byte
  deriving DecidableEq, Repr

/-- The fields of a matching line (R160, R161), as parsed and without any check between them (R165). -/
structure Envelope where
  talker : Nat
  total : Nat
  frag : Nat
  seq : Option Nat
  chan : Nat
  payloadAt : Nat
  payloadLen : Nat
  fill : Nat
  star : Nat
  received : Nat
  deriving DecidableEq, Repr

/-- `expect(pred)` (R161): step over one byte that satisfies `p`, else FAIL at the cursor; the end of the line fails too. -/
def Cursor.expect (c : Cursor) (p : Byte → Bool) : Except Nat Cursor :=
  match c.rest with
  | b :: rest => if p b then .ok { pos := c.pos + 1, last := b, rest := rest } else .error c.pos
  | [] => .error c.pos

/-- Step over every leading byte that satisfies `p`, as the payload loop of R161 does. -/
def Cursor.skip (c : Cursor) (p : Byte → Bool) : Cursor :=
  { c with pos := c.pos + (c.rest.takeWhile p).length, rest := c.rest.dropWhile p }

/-- `while p < n : expect(∈ {CR, LF})` (R161), from offset `pos` on. -/
def expectEols (pos : Nat) (bs : List Byte) : Except Nat Unit :=
  match bs with
  | [] => .ok ()
  | b :: rest => if isEol b then expectEols (pos + 1) rest else .error pos

/-- The optional sequence-id digit (R161): its value where the next byte is a digit, and the cursor after it. -/
def Cursor.optDigit (c : Cursor) : Option Nat × Cursor :=
  match c.expect isDigit with
  | .ok c' => (some (digitVal c'.last), c')
  | .error _ => (none, c)

/-- The byte is one of the two. -/
def isEither (x y b : Byte) : Bool := b == x || b == y

/-- `talker ','`: the talker tag `AIVDM` or `AIVDO` in any case, and the comma (R160). The value is 1 for `AIVDO`. -/
def parseTalker (c : Cursor) : Except Nat (Nat × Cursor) := do
  let c ← c.expect (· == 0x21)
  let c ← c.expect (isEither 0x41 0x61)
  let c ← c.expect (isEither 0x49 0x69)
  let c ← c.expect (isEither 0x56 0x76)
  let c ← c.expect (isEither 0x44 0x64)
  let o ← c.expect fun b => isEither 0x4D 0x6D b || isEither 0x4F 0x6F b
  let c ← o.expect (· == 0x2C)
  .ok (if isEither 0x4F 0x6F o.last then 1 else 0, c)

/-- `digit ','` (R160). -/
def parseDigitComma (c : Cursor) : Except Nat (Nat × Cursor) := do
  let d ← c.expect isDigit
  let c ← d.expect (· == 0x2C)
  .ok (digitVal d.last, c)

/-- The whole line (R160, R161), or the offset of the first byte that cannot continue a match. -/
def parseLine (line : List Byte) : Except Nat Envelope := do
  let (talker, c) ← parseTalker { pos := 0, last := 0, rest := line }
  let (total, c) ← parseDigitComma c
  let (frag, c) ← parseDigitComma c
  let (seq, c) := c.optDigit
  let c ← c.expect (· == 0x2C)
  let ch ← c.expect (isEither 0x41 0x42)
  let c ← ch.expect (· == 0x2C)
  let payloadAt := c.pos
  let c := c.skip isPchar
  let payloadLen := c.pos - payloadAt
  let c ← c.expect (· == 0x2C)
  let f ← c.expect isDigit
  let s ← f.expect (· == 0x2A)
  let hi ← s.expect isHexu
  let lo ← hi.expect isHexu
  expectEols lo.pos lo.rest
  .ok {
    talker := talker, total := total, frag := frag, seq := seq
    chan := if ch.last == 0x42 then 1 else 0
    payloadAt := payloadAt, payloadLen := payloadLen, fill := digitVal f.last
    star := s.pos - 1
    received := 16 * hexval hi.last + hexval lo.last }

/-- The checksum of a line whose `*` is at offset `star`: the XOR of bytes 1 .. star-1 (R163). -/
def lineChecksum (line : List Byte) (star : Nat) : Byte := xorBytes ((line.take star).drop 1)

/-- RES1 of PARSE for a matching line (R161, R162). -/
def Envelope.fieldsWord (e : Envelope) : Word :=
  BitVec.ofNat 32 (e.total ||| e.frag <<< 4 ||| e.seq.getD 0 <<< 8 ||| e.seq.isSome.toNat <<< 12 ||| e.chan <<< 13
    ||| e.talker <<< 14 ||| e.fill <<< 16)

/-- RES2 of PARSE for a matching line at CBUF address `a` (R161, R162). -/
def Envelope.payloadWord (e : Envelope) (a : Nat) : Word := BitVec.ofNat 32 ((a + e.payloadAt) ||| e.payloadLen <<< 16)

/-- RES3 of PARSE for a matching line with computed checksum `cx` (R161, R162). -/
def Envelope.checksumWord (e : Envelope) (cx : Nat) : Word :=
  BitVec.ofNat 32 (cx ||| e.received <<< 8 ||| (if cx = e.received then 1 else 0) <<< 16)

/-- PARSE (R161): a = ARG0, n = ARG1. Every verdict completes without an error (R164). -/
def execParse (s : State) : Result :=
  if pastCbuf s.op0 s.op1 then .next (s.raise .cbufRange 0)
  else
    let line := s.readBytes s.op0 s.op1
    match parseLine line with
    | .error i => .next (s.complete (BitVec.ofNat 32 (1 ||| i <<< 16)) 0 0 0)
    | .ok e =>
      let cx := (lineChecksum line e.star).toNat
      let verdict : Word := if cx ≠ e.received ∧ s.latchedCken = true then 2 else 0
      .next (s.complete verdict e.fieldsWord (e.payloadWord s.op0) (e.checksumWord cx))

/-- CKSUM (R170): a = ARG0, n = ARG1. -/
def execCksum (s : State) : Result :=
  if pastCbuf s.op0 s.op1 then .next (s.raise .cbufRange 0)
  else
    let x := (xorBytes (s.readBytes s.op0 s.op1)).toNat
    .next (s.complete (zext32 x) (zext32 (hexdig (x / 16))) (zext32 (hexdig (x % 16))) 0)

end Sys2Proof.Machine
end

