-- ==== Sys2Proof/Machine/Illegal.lean ====
section
/-! DEFINITION. The engine step of an illegal command (R95). -/

namespace Sys2Proof.Machine

/-- ILLEGAL (R95): the command completes with error ILLEGAL, ERRINFO the whole command word. -/
def execIllegal (w : Word) (s : State) : Result := .next (s.raise .illegal w)

end Sys2Proof.Machine
end

