-- ==== Sys2Proof/Machine/Dispatch.lean ====
section
/-! DEFINITION. The one dispatch from commands to their meanings. -/

namespace Sys2Proof.Machine

-- The engine performs the command `i` in the state `s` (R33).
def exec (i : Instr) (s : State) : Host.Outcome State Fault Refusal :=
  match i with
  | .rdu => Sys2Proof.Machine.execRdu s
  | .rds => Sys2Proof.Machine.execRds s
  | .rdtxt => Sys2Proof.Machine.execRdtxt s
  | .wru => Sys2Proof.Machine.execWru s
  | .wrs => Sys2Proof.Machine.execWrs s
  | .wrtxt => Sys2Proof.Machine.execWrtxt s
  | .armdec => Sys2Proof.Machine.execArmdec s
  | .armenc => Sys2Proof.Machine.execArmenc s
  | .parse => Sys2Proof.Machine.execParse s
  | .cksum => Sys2Proof.Machine.execCksum s
  | .illegal w => Sys2Proof.Machine.execIllegal w s

end Sys2Proof.Machine
end

