-- ==== Sys2Proof/Machine/Step.lean ====
section
/-! DEFINITION. One step of the block: an engine step where one is due, else a turn of the host (R18, R33, R74). -/

namespace Sys2Proof.Machine

/-- One event of the total order of R74. The engine performs the latched command as one atomic transition (R33). -/
def step (s : State) : Host.Outcome State Fault Refusal :=
  if s.engineDue then exec (decode s.latched.word) s else .next s.hostTurn

/-- The state in which the command word `w` has just been accepted, with the operands of `s`, and is due at once. -/
def State.withFetchWord (s : State) (nbits w : Nat) : State :=
  { s.latchCommand (BitVec.ofNat 32 (w % 2 ^ nbits)) with wait := 0 }

end Sys2Proof.Machine
end

