-- ==== Sys2Proof/Machine/HostProgram.lean ====
section
/-! DEFINITION. Host programs (R96, R97): a bus master that runs a program of bus accesses. The scratch registers and the
program counter here belong to the host, not to the block (R35, R96); branch labels are statement indexes. -/

namespace Sys2Proof.Machine

/-- An operand of `wr` and of a pseudo-instruction (R96, R97): a number or a host register. -/
inductive HostValue where
  | num (n : Word)
  | reg (r : Fin 16)
  deriving DecidableEq, Repr

/-- The base instructions of R96. -/
inductive HostStmt where
  /-- `wr OFF, X` -/
  | wr (off : BitVec 12) (x : HostValue)
  /-- `rd hD, OFF` -/
  | rd (d : Fin 16) (off : BitVec 12)
  /-- `li hD, N` -/
  | li (d : Fin 16) (n : Word)
  /-- `andi hD, hS, N` -/
  | andi (d s : Fin 16) (n : Word)
  /-- `srli hD, hS, N` -/
  | srli (d s : Fin 16) (n : Nat)
  /-- `xor hD, hS, hT` -/
  | xor (d s t : Fin 16)
  /-- `bnez hS, L` -/
  | bnez (s : Fin 16) (target : Nat)
  /-- `beqz hS, L` -/
  | beqz (s : Fin 16) (target : Nat)
  /-- `halt` -/
  | halt
  deriving DecidableEq, Repr

/-- The pseudo-instructions of R97. -/
inductive Pseudo where
  | rdu (s l : HostValue)
  | rds (s l : HostValue)
  | rdtxt (s n d : HostValue)
  | wru (v l : HostValue)
  | wrs (v l : HostValue)
  | wrtxt (a m n : HostValue)
  | armdec (a n f : HostValue)
  | armenc (d s l : HostValue)
  | parse (a n : HostValue)
  | cksum (a n : HostValue)
  | poll
  | clrbits
  | ldstr (a : Nat) (text : List Byte)
  deriving DecidableEq, Repr

/-- `poll` as the statements from index `at_` on (R97): read STATUS into h15 until BUSY is 0. -/
def expandPoll (at_ : Nat) : List HostStmt := [.rd 15 0x010, .andi 15 15 1, .bnez 15 at_]

/-- A command's pseudo-instruction (R97): the ARG writes in order, the CMD write, the poll. -/
def expandCommand (at_ : Nat) (args : List HostValue) (i : Instr) : List HostStmt :=
  let writes := args.zipIdx.map fun (x, k) => HostStmt.wr (BitVec.ofNat 12 (0x020 + 4 * k)) x
  writes ++ .wr 0x014 (.num (encode i)) :: expandPoll (at_ + writes.length + 1)

/-- The little-endian words `ldstr` writes (R65, R97), missing bytes of the last word taken as 0. -/
def ldstrWord (text : List Byte) (i : Nat) : Word :=
  text.getD (4 * i + 3) 0 ++ text.getD (4 * i + 2) 0 ++ text.getD (4 * i + 1) 0 ++ text.getD (4 * i) 0

/-- The expansion of a pseudo-instruction whose first statement stands at index `at_` (R97). DESIGN CHOICE (log entry 19):
R97 puts no bound on the address of `ldstr`, and an offset past 0xFFF, which R60 does not have, is taken modulo 0x1000. -/
def Pseudo.expand (at_ : Nat) : Pseudo → List HostStmt
  | .rdu s l => expandCommand at_ [s, l] .rdu
  | .rds s l => expandCommand at_ [s, l] .rds
  | .rdtxt s n d => expandCommand at_ [s, n, d] .rdtxt
  | .wru v l => expandCommand at_ [v, l] .wru
  | .wrs v l => expandCommand at_ [v, l] .wrs
  | .wrtxt a m n => expandCommand at_ [a, m, n] .wrtxt
  | .armdec a n f => expandCommand at_ [a, n, f] .armdec
  | .armenc d s l => expandCommand at_ [d, s, l] .armenc
  | .parse a n => expandCommand at_ [a, n] .parse
  | .cksum a n => expandCommand at_ [a, n] .cksum
  | .poll => expandPoll at_
  | .clrbits => [.wr 0x018 (.num 0)]
  | .ldstr a text => (List.range ((text.length + 3) / 4)).map fun i =>
      .wr (BitVec.ofNat 12 (Config.cbufBase + a + 4 * i)) (.num (ldstrWord text i))

/-- A host program in execution, with the block it drives. -/
structure HostProgram where
  code : List HostStmt
  pc : Nat
  h : Vector Word 16
  halted : Bool
  block : State
  deriving DecidableEq, Repr

/-- The value of an operand (R96). -/
def HostProgram.value (p : HostProgram) : HostValue → Word
  | .num n => n
  | .reg r => p.h[r]

/-- The block after one step in which the host does `es` (R60): the step of the block is the block's own. -/
def blockStep (b : State) (es : List BusEvent) : State :=
  match step { b with bus := b.bus ++ es } with
  | .next t => t
  | .fault _ => b
  | .refused _ => b

/-- The data of the answer to the latest read. -/
def State.readData (s : State) : Word := (s.response.bind BusResponse.data).getD 0

/-- One statement of a host program (R96); the block takes one turn meanwhile, since time passes for it too. -/
def HostProgram.runStmt (p : HostProgram) (i : HostStmt) : HostProgram :=
  let quiet := blockStep p.block []
  match i with
  | .wr off x => { p with pc := p.pc + 1, block := blockStep p.block [.write off 0xF (p.value x)] }
  | .rd d off =>
    let b := blockStep p.block [.read off 0xF]
    { p with pc := p.pc + 1, block := b, h := p.h.set d b.readData }
  | .li d n => { p with pc := p.pc + 1, block := quiet, h := p.h.set d n }
  | .andi d s n => { p with pc := p.pc + 1, block := quiet, h := p.h.set d (p.h[s] &&& n) }
  | .srli d s n => { p with pc := p.pc + 1, block := quiet, h := p.h.set d (p.h[s] >>> n) }
  | .xor d s t => { p with pc := p.pc + 1, block := quiet, h := p.h.set d (p.h[s] ^^^ p.h[t]) }
  | .bnez s target => { p with pc := if p.h[s] ≠ 0 then target else p.pc + 1, block := quiet }
  | .beqz s target => { p with pc := if p.h[s] = 0 then target else p.pc + 1, block := quiet }
  | .halt => { p with halted := true, block := quiet }

/-- One step of the host and the block together: the block alone where its engine is due, an earlier access is still on
the bus, or the program has ended; else one statement. DESIGN CHOICE (log entry 18): R96 names `halt` alone as the end, and
where control reaches an index with no statement the program ends there too, in a step in which the block takes no turn. -/
def HostProgram.step (p : HostProgram) : HostProgram :=
  if p.halted || p.block.engineDue || !p.block.bus.isEmpty then { p with block := blockStep p.block [] }
  else
    match p.code[p.pc]? with
    | some i => p.runStmt i
    | none => { p with halted := true }

/-- `n` steps of the host and the block together. -/
def HostProgram.run (n : Nat) (p : HostProgram) : HostProgram :=
  match n with
  | 0 => p
  | n + 1 => HostProgram.run n p.step

end Sys2Proof.Machine
end

