-- ==== Sys2Proof/Safety.lean ====
section
/-! DEFINITION. What the claims about this machine are stated in: the spec's own sums for field values (R11, R12), the two
ways a command ends and what it leaves unchanged (R17, R202), the line grammar as a relation (R160), issuing a command, and
the invariant of the machine. -/

namespace Sys2Proof.Machine

/-- `ufield` as the sum of R11, over any bit buffer. -/
def fieldSum (B : Nat → Bool) (i L : Nat) : Nat := ∑ k ∈ Finset.range L, (B (i + k)).toNat * 2 ^ (L - 1 - k)

/-- `sfield` as R12 gives it, over any bit buffer. -/
def fieldSigned (B : Nat → Bool) (i L : Nat) : Int :=
  if 1 ≤ L ∧ B i = true then (fieldSum B i L : Int) - 2 ^ L else fieldSum B i L

/-- What no engine step changes: CTRL, OVR, CMD, the operands (R24, R25, R27, R30), and the model's own fields. -/
structure EngineKeeps (s t : State) : Prop where
  cken : t.cken = s.cken
  ie : t.ie = s.ie
  ovr : t.ovr = s.ovr
  cmd : t.cmd = s.cmd
  arg0 : t.arg0 = s.arg0
  arg1 : t.arg1 = s.arg1
  arg2 : t.arg2 = s.arg2
  wait : t.wait = s.wait
  latencies : t.latencies = s.latencies
  draws : t.draws = s.draws
  epoch : t.epoch = s.epoch
  bus : t.bus = s.bus
  response : t.response = s.response

/-- Every byte of CBUF outside the `n` bytes at `a` reads as before. -/
def CbufKept (s t : State) (a n : Nat) : Prop := ∀ b, (b < a ∨ a + n ≤ b) → t.byte b = s.byte b

/-- Every bit of BBUF outside the `n` bits at `i` reads as before. -/
def BbufKept (s t : State) (i n : Nat) : Prop := ∀ j, (j < i ∨ i + n ≤ j) → t.bit j = s.bit j

/-- Neither buffer, nor BLEN, nor WRAP changes. -/
structure StoresNothing (s t : State) : Prop where
  cbuf : CbufKept s t 0 0
  bbuf : BbufKept s t 0 0
  blen : t.blen = s.blen
  wrap : t.wrap = s.wrap

/-- The command of `s` has ended by `complete(r0, r1, r2, r3)` in `t` (R17), whatever it stored. -/
structure Completes (s t : State) (r0 r1 r2 r3 : Word) : Prop where
  res0 : t.res0 = r0
  res1 : t.res1 = r1
  res2 : t.res2 = r2
  res3 : t.res3 = r3
  errinfo : t.errinfo = 0
  err : t.err = false
  errcode : t.errcode = .noError
  idle : t.pending = none
  done : t.done = true
  keeps : EngineKeeps s t

/-- The command of `s` has ended by `raise CmdError(code, info)` in `t`, with no other effect (R17, R202). -/
structure Fails (s t : State) (code : ErrCode) (info : Word) : Prop where
  res0 : t.res0 = 0
  res1 : t.res1 = 0
  res2 : t.res2 = 0
  res3 : t.res3 = 0
  errinfo : t.errinfo = info
  err : t.err = true
  errcode : t.errcode = code
  idle : t.pending = none
  done : t.done = true
  keeps : EngineKeeps s t
  stores : StoresNothing s t

/-- Every register, the latch and both buffers read as before: what a host read leaves (R71). -/
structure BlockKept (s t : State) : Prop where
  cken : t.cken = s.cken
  ie : t.ie = s.ie
  done : t.done = s.done
  err : t.err = s.err
  ovr : t.ovr = s.ovr
  errcode : t.errcode = s.errcode
  errinfo : t.errinfo = s.errinfo
  cmd : t.cmd = s.cmd
  arg0 : t.arg0 = s.arg0
  arg1 : t.arg1 = s.arg1
  arg2 : t.arg2 = s.arg2
  res0 : t.res0 = s.res0
  res1 : t.res1 = s.res1
  res2 : t.res2 = s.res2
  res3 : t.res3 = s.res3
  pending : t.pending = s.pending
  stores : StoresNothing s t

/-- The host has written the three operands and the command word `w`, and the command has been accepted (R30, R32). -/
def State.issue (s : State) (w a0 a1 a2 : Word) : State :=
  { s with arg0 := a0, arg1 := a1, arg2 := a2 }.latchCommand w

/-- The byte is one of the line grammar's digits (R160). -/
def LineDigit (b : Byte) : Prop := 0x30 ≤ b.toNat ∧ b.toNat ≤ 0x39

/-- The byte is one of the line grammar's hex digits (R160). -/
def LineHex (b : Byte) : Prop := LineDigit b ∨ (0x41 ≤ b.toNat ∧ b.toNat ≤ 0x46)

/-- The value of a hex digit (R161). -/
def hexDigitValue (b : Byte) : Nat := if b.toNat ≤ 0x39 then b.toNat - 0x30 else b.toNat - 0x37

/-- The byte may stand in a payload (R160). -/
def LinePayloadByte (b : Byte) : Prop := 0x21 ≤ b.toNat ∧ b.toNat ≤ 0x7E ∧ b ≠ 0x2C ∧ b ≠ 0x2A

/-- `line` matches the grammar of R160, and `e` holds its fields as R161 reads them. -/
def IsLine (line : List Byte) (e : Envelope) : Prop :=
  ∃ (t₁ t₂ t₃ t₄ t₅ total frag chan fill h₁ h₂ : Byte) (seq payload eols : List Byte),
    line = [0x21, t₁, t₂, t₃, t₄, t₅, 0x2C, total, 0x2C, frag, 0x2C] ++ seq ++ [0x2C, chan, 0x2C] ++ payload
      ++ [0x2C, fill, 0x2A, h₁, h₂] ++ eols
    ∧ t₁ ∈ [(0x41 : Byte), 0x61] ∧ t₂ ∈ [(0x49 : Byte), 0x69] ∧ t₃ ∈ [(0x56 : Byte), 0x76]
    ∧ t₄ ∈ [(0x44 : Byte), 0x64] ∧ t₅ ∈ [(0x4D : Byte), 0x6D, 0x4F, 0x6F]
    ∧ LineDigit total ∧ LineDigit frag ∧ seq.length ≤ 1 ∧ (∀ b ∈ seq, LineDigit b)
    ∧ chan ∈ [(0x41 : Byte), 0x42] ∧ (∀ b ∈ payload, LinePayloadByte b) ∧ LineDigit fill
    ∧ LineHex h₁ ∧ LineHex h₂ ∧ (∀ b ∈ eols, b ∈ [(0x0D : Byte), 0x0A])
    ∧ e = {
        talker := if t₅ ∈ [(0x4F : Byte), 0x6F] then 1 else 0
        total := total.toNat - 0x30
        frag := frag.toNat - 0x30
        seq := seq.head?.map fun b => b.toNat - 0x30
        chan := if chan = 0x42 then 1 else 0
        payloadAt := 14 + seq.length
        payloadLen := payload.length
        fill := fill.toNat - 0x30
        star := 16 + seq.length + payload.length
        received := 16 * hexDigitValue h₁ + hexDigitValue h₂ }

/-- The line can still be completed to one that matches the grammar (R162: a byte "that cannot continue a match"). -/
def CanContinue (start : List Byte) : Prop := ∃ rest e, IsLine (start ++ rest) e

/-- The invariant of the machine: both buffers in canonical form, BLEN within BBUF (R28), the STATUS invariants of R25, the
latch equal to the registers it was taken from (R32), and what the last completion left in RES and ERRINFO (R29, R31). -/
structure Inv (s : State) : Prop where
  cbuf : s.cbuf.wf Config.cbufBytes = true
  bbuf : s.bbuf.wf Config.bbufBits = true
  blen : s.blen ≤ Config.bbufBits
  busyClear : s.busy = true → s.done = false ∧ s.err = false
  errcode : s.err = false ↔ s.errcode = .noError
  latch : ∀ p, s.pending = some p →
    p = { word := s.cmd, arg0 := s.arg0, arg1 := s.arg1, arg2 := s.arg2, cken := s.cken }
  failed : s.err = true → s.res0 = 0 ∧ s.res1 = 0 ∧ s.res2 = 0 ∧ s.res3 = 0
  errinfo : s.busy = false → s.err = false → s.errinfo = 0

end Sys2Proof.Machine
end

