-- ==== Sys2Proof/Certificates/Slice0/Obligations.lean ====
section
/-! DEFINITION. The statements about the machine, for the provers. -/

open Sys2Proof Sys2Proof.Machine

/-- R93, R94: the ten command words decode to their commands, every other word to ILLEGAL. -/
def Obligations.DecodeFollowsOpcodeMap : Prop :=
  decode 0x00000010 = .rdu ∧ decode 0x00000011 = .rds ∧ decode 0x00000012 = .rdtxt ∧ decode 0x00000018 = .wru
    ∧ decode 0x00000019 = .wrs ∧ decode 0x0000001A = .wrtxt ∧ decode 0x00000020 = .armdec ∧ decode 0x00000021 = .armenc
    ∧ decode 0x00000030 = .parse ∧ decode 0x00000031 = .cksum
    ∧ ∀ w : Word, w ∉ [0x10, 0x11, 0x12, 0x18, 0x19, 0x1A, 0x20, 0x21, 0x30, (0x31 : Word)] → decode w = .illegal w

/-- R90, R93 - R95: encoding then decoding a well-formed instruction gives it back, and every word is the encoding of the
well-formed instruction it decodes to, so no bit of a word is dropped. -/
def Obligations.DecodeAndEncodeAgree : Prop :=
  (∀ i : Instr, i.wellFormed = true → decode (encode i) = i)
    ∧ ∀ w : Word, (decode w).wellFormed = true ∧ encode (decode w) = w

/-- R33, R92: when the pending command is due, the step is exec of the latched word's command, on the latched operands; in
every other state it is a turn of the host; and `withFetchWord` makes its word due, with the operands of ARG0..ARG2. That a
latency counts turns of the host (log entry 2) and that `withFetchWord` stands for an acceptance with latency 0 (log entry 7)
are the model's choices. -/
def Obligations.StepPerformsLatchedCommand : Prop :=
  (∀ (s : State) (p : Pending), s.pending = some p → s.wait = 0 →
    step s = exec (decode p.word) s ∧ s.op0 = p.arg0.toNat ∧ s.op1 = p.arg1.toNat ∧ s.op2 = p.arg2.toNat
      ∧ s.op0Signed = p.arg0.toInt ∧ s.latchedCken = p.cken)
    ∧ (∀ s : State, (s.pending = none ∨ s.wait ≠ 0) → step s = .next s.hostTurn)
    ∧ ∀ (s : State) (w : Word),
        step (s.withFetchWord 32 w.toNat) = exec (decode w) (s.withFetchWord 32 w.toNat)
          ∧ (s.withFetchWord 32 w.toNat).op0 = s.arg0.toNat ∧ (s.withFetchWord 32 w.toNat).op1 = s.arg1.toNat
          ∧ (s.withFetchWord 32 w.toNat).op2 = s.arg2.toNat ∧ (s.withFetchWord 32 w.toNat).latchedCken = s.cken

/-- R202, R203: nothing stops the block: from every state a step gives a next state. -/
def Obligations.StepNeverStops : Prop := ∀ s : State, ∃ t, step s = .next t

/-- R33, R7, R78: without a reset, the pending command becomes due after as many host turns as its latency, and then its
latch, both buffers, BLEN and the registers the latch was taken from are what they were. -/
def Obligations.PendingCommandComesDueUnchanged : Prop :=
  ∀ (s : State) (p : Pending), s.pending = some p → (∀ e ∈ s.bus, e ≠ .reset) →
    ∃ u : State, Host.Core.run Sys2Proof.core s.wait s = .next u ∧ u.pending = some p ∧ u.wait = 0
      ∧ (∀ a, u.byte a = s.byte a) ∧ (∀ i, u.bit i = s.bit i) ∧ u.blen = s.blen ∧ u.cmd = s.cmd ∧ u.cken = s.cken
      ∧ u.arg0 = s.arg0 ∧ u.arg1 = s.arg1 ∧ u.arg2 = s.arg2 ∧ step u = exec (decode p.word) u

/-- R111 with the field value of R11: RDU. -/
def Obligations.RduReadsUnsignedField : Prop :=
  ∀ s : State,
    (32 < s.op1 → ∃ t, exec .rdu s = .next t ∧ Fails s t .badLen 0)
    ∧ (s.op1 ≤ 32 → s.blen < s.op0 + s.op1 → ∃ t, exec .rdu s = .next t ∧ Fails s t .bitRange 0)
    ∧ (s.op1 ≤ 32 → s.op0 + s.op1 ≤ s.blen → ∃ t, exec .rdu s = .next t
        ∧ Completes s t (BitVec.ofNat 32 (fieldSum s.bit s.op0 s.op1)) 0 0 0
        ∧ t.res0.toNat = fieldSum s.bit s.op0 s.op1 ∧ StoresNothing s t)

/-- R112 with the field value of R12: RDS. -/
def Obligations.RdsReadsSignedField : Prop :=
  ∀ s : State,
    (32 < s.op1 → ∃ t, exec .rds s = .next t ∧ Fails s t .badLen 0)
    ∧ (s.op1 ≤ 32 → s.blen < s.op0 + s.op1 → ∃ t, exec .rds s = .next t ∧ Fails s t .bitRange 0)
    ∧ (s.op1 ≤ 32 → s.op0 + s.op1 ≤ s.blen → ∃ t, exec .rds s = .next t
        ∧ Completes s t (BitVec.ofInt 32 (fieldSigned s.bit s.op0 s.op1)) 0 0 0
        ∧ t.res0.toInt = fieldSigned s.bit s.op0 s.op1 ∧ StoresNothing s t)

/-- R113: `trim6` removes the trailing run of `@` first, then all leading and all trailing spaces, and nothing else. -/
def Obligations.TrimRemovesPaddingThenSpaces : Prop :=
  ∀ t : List Byte, ∃ lead tail pad : List Byte,
    t = lead ++ trim6 t ++ tail ++ pad
      ∧ (∀ b ∈ pad, b = 0x40) ∧ (lead ++ trim6 t ++ tail).getLast? ≠ some 0x40
      ∧ (∀ b ∈ lead, b = 0x20) ∧ (∀ b ∈ tail, b = 0x20)
      ∧ (trim6 t).head? ≠ some 0x20 ∧ (trim6 t).getLast? ≠ some 0x20

/-- R114: RDTXT, its text trimmed by the `trim6` of R113. -/
def Obligations.RdtxtDecodesText : Prop :=
  ∀ s : State,
    (256 < s.op2 + s.op1 → ∃ t, exec .rdtxt s = .next t ∧ Fails s t .cbufRange 0)
    ∧ (s.op2 + s.op1 ≤ 256 →
        let g := if s.op0 ≤ s.blen then min s.op1 ((s.blen - s.op0) / 6) else 0
        let text := trim6 ((List.range g).map fun k => chr6 (fieldSum s.bit (s.op0 + 6 * k) 6))
        ∃ t, exec .rdtxt s = .next t ∧ Completes s t (BitVec.ofNat 32 text.length) (BitVec.ofNat 32 g) 0 0
          ∧ (∀ i (h : i < text.length), t.byte (s.op2 + i) = text[i])
          ∧ CbufKept s t s.op2 text.length ∧ BbufKept s t 0 0 ∧ t.blen = s.blen ∧ t.wrap = s.wrap)

/-- R121 with the append of R120: WRU. -/
def Obligations.WruPacksUnsignedField : Prop :=
  ∀ s : State,
    (32 < s.op1 → ∃ t, exec .wru s = .next t ∧ Fails s t .badLen 0)
    ∧ (s.op1 ≤ 32 → 2048 < s.blen + s.op1 → ∃ t, exec .wru s = .next t ∧ Fails s t .bbufFull 0)
    ∧ (s.op1 ≤ 32 → s.blen + s.op1 ≤ 2048 →
        let w := s.op0 % 2 ^ s.op1
        ∃ t, exec .wru s = .next t ∧ Completes s t (BitVec.ofNat 32 (s.blen + s.op1)) (BitVec.ofNat 32 w) 0 0
          ∧ t.blen = s.blen + s.op1 ∧ (∀ k < s.op1, t.bit (s.blen + k) = w.testBit (s.op1 - 1 - k))
          ∧ (t.wrap = true ↔ s.wrap = true ∨ w ≠ s.op0) ∧ BbufKept s t s.blen s.op1 ∧ CbufKept s t 0 0)

/-- R122 with the append of R120: WRS. -/
def Obligations.WrsPacksSignedField : Prop :=
  ∀ s : State,
    (32 < s.op1 → ∃ t, exec .wrs s = .next t ∧ Fails s t .badLen 0)
    ∧ (s.op1 ≤ 32 → 2048 < s.blen + s.op1 → ∃ t, exec .wrs s = .next t ∧ Fails s t .bbufFull 0)
    ∧ (s.op1 ≤ 32 → s.blen + s.op1 ≤ 2048 →
        ∃ (w : Nat) (t : State), (w : Int) = s.op0Signed % 2 ^ s.op1 ∧ exec .wrs s = .next t
          ∧ Completes s t (BitVec.ofNat 32 (s.blen + s.op1)) (BitVec.ofNat 32 w) 0 0
          ∧ t.blen = s.blen + s.op1 ∧ (∀ k < s.op1, t.bit (s.blen + k) = w.testBit (s.op1 - 1 - k))
          ∧ (t.wrap = true ↔ s.wrap = true ∨ fieldSigned t.bit s.blen s.op1 ≠ s.op0Signed)
          ∧ BbufKept s t s.blen s.op1 ∧ CbufKept s t 0 0)

/-- R123 with the append of R120: WRTXT. -/
def Obligations.WrtxtPacksText : Prop :=
  ∀ s : State,
    (256 < s.op0 + s.op1 → ∃ t, exec .wrtxt s = .next t ∧ Fails s t .cbufRange 0)
    ∧ (s.op0 + s.op1 ≤ 256 → 2048 < s.blen + 6 * s.op2 → ∃ t, exec .wrtxt s = .next t ∧ Fails s t .bbufFull 0)
    ∧ (s.op0 + s.op1 ≤ 256 → s.blen + 6 * s.op2 ≤ 2048 →
        let c := fun k => if k < s.op1 then upper (s.byte (s.op0 + k)) else 0x40
        let u := ((Finset.range s.op2).filter fun k => k < s.op1 ∧ ¬ (0x20 ≤ (c k).toNat ∧ (c k).toNat ≤ 0x5F)).card
        ∃ t, exec .wrtxt s = .next t ∧ Completes s t (BitVec.ofNat 32 (s.blen + 6 * s.op2)) (BitVec.ofNat 32 u) 0 0
          ∧ t.blen = s.blen + 6 * s.op2
          ∧ (∀ k < s.op2, ∀ j < 6, t.bit (s.blen + (6 * k + j)) = (inv6 (c k)).testBit (5 - j))
          ∧ BbufKept s t s.blen (6 * s.op2) ∧ CbufKept s t 0 0 ∧ t.wrap = s.wrap)

/-- R141: ARMDEC. With this hardware's sizes BBUF_FULL cannot occur, as R141 says. -/
def Obligations.ArmdecReplacesBitString : Prop :=
  ∀ s : State,
    let bad := fun k => (s.byte (s.op0 + k)).toNat < 0x30 ∨ 0x77 < (s.byte (s.op0 + k)).toNat
    (256 < s.op0 + s.op1 → ∃ t, exec .armdec s = .next t ∧ Fails s t .cbufRange 0)
    ∧ (s.op0 + s.op1 ≤ 256 → 6 * s.op1 < s.op2 → ∃ t, exec .armdec s = .next t ∧ Fails s t .badFill 0)
    ∧ (s.op0 + s.op1 ≤ 256 → s.op2 ≤ 6 * s.op1 → ∀ k < s.op1, bad k → (∀ j < k, ¬ bad j) →
        ∃ t, exec .armdec s = .next t
          ∧ Fails s t .badArmor (BitVec.ofNat 32 (k + (s.byte (s.op0 + k)).toNat * 2 ^ 16)))
    ∧ (s.op0 + s.op1 ≤ 256 → s.op2 ≤ 6 * s.op1 → (∀ k < s.op1, ¬ bad k) →
        ∃ t, exec .armdec s = .next t ∧ Completes s t (BitVec.ofNat 32 (6 * s.op1 - s.op2)) 0 0 0
          ∧ t.blen = 6 * s.op1 - s.op2
          ∧ (∀ k < s.op1, ∀ j < 6, t.bit (6 * k + j) = (unarmor (s.byte (s.op0 + k))).testBit (5 - j))
          ∧ BbufKept s t 0 (6 * s.op1) ∧ CbufKept s t 0 0 ∧ t.wrap = s.wrap)
    ∧ ∀ t, exec .armdec s = .next t → t.errcode ≠ .bbufFull

/-- R150: ARMENC, the number of characters being ceil(L / 6). -/
def Obligations.ArmencWritesArmor : Prop :=
  ∀ s : State,
    let c := (s.op2 + 5) / 6
    (256 < s.op0 + c → ∃ t, exec .armenc s = .next t ∧ Fails s t .cbufRange 0)
    ∧ (s.op0 + c ≤ 256 → s.blen < s.op1 + s.op2 → ∃ t, exec .armenc s = .next t ∧ Fails s t .bitRange 0)
    ∧ (s.op0 + c ≤ 256 → s.op1 + s.op2 ≤ s.blen →
        ∃ t, exec .armenc s = .next t ∧ Completes s t (BitVec.ofNat 32 c) (BitVec.ofNat 32 (6 * c - s.op2)) 0 0
          ∧ (∀ k < c, t.byte (s.op0 + k)
              = armor (fieldSum (fun i => decide (i < s.op1 + s.op2) && s.bit i) (s.op1 + 6 * k) 6))
          ∧ CbufKept s t s.op0 c ∧ BbufKept s t 0 0 ∧ t.blen = s.blen ∧ t.wrap = s.wrap)

/-- R160 - R163 for a line that matches the grammar, and PARSE's range error: verdict, envelope, payload location and
checksums, the checksum being the XOR of the bytes between the leading `!` and the `*`. -/
def Obligations.ParseReportsMatchingLine : Prop :=
  ∀ s : State,
    (256 < s.op0 + s.op1 → ∃ t, exec .parse s = .next t ∧ Fails s t .cbufRange 0)
    ∧ ∀ e : Envelope, s.op0 + s.op1 ≤ 256 → IsLine (s.readBytes s.op0 s.op1) e →
        let cx := (xorBytes ((List.range (e.star - 1)).map fun i => s.byte (s.op0 + 1 + i))).toNat
        ∃ t, exec .parse s = .next t
          ∧ Completes s t
              (if cx ≠ e.received ∧ s.latchedCken = true then 2 else 0)
              (BitVec.ofNat 32 (e.total + e.frag * 2 ^ 4 + (e.seq.getD 0) * 2 ^ 8 + e.seq.isSome.toNat * 2 ^ 12
                + e.chan * 2 ^ 13 + e.talker * 2 ^ 14 + e.fill * 2 ^ 16))
              (BitVec.ofNat 32 (s.op0 + e.payloadAt + e.payloadLen * 2 ^ 16))
              (BitVec.ofNat 32 (cx + e.received * 2 ^ 8 + (if cx = e.received then 2 ^ 16 else 0)))
          ∧ StoresNothing s t

/-- R161, R162 for a line that does not match: verdict MALFORMED with RES1..RES3 = 0, and a failure index that is the
offset of the first byte that cannot continue a match, or n if the line ended. -/
def Obligations.ParseReportsFailureIndex : Prop :=
  ∀ s : State, s.op0 + s.op1 ≤ 256 → (¬ ∃ e, IsLine (s.readBytes s.op0 s.op1) e) →
    ∃ (t : State) (i : Nat), exec .parse s = .next t ∧ Completes s t (BitVec.ofNat 32 (1 + i * 2 ^ 16)) 0 0 0
      ∧ StoresNothing s t ∧ i ≤ s.op1 ∧ CanContinue ((s.readBytes s.op0 s.op1).take i)
      ∧ (i < s.op1 → ¬ CanContinue ((s.readBytes s.op0 s.op1).take (i + 1)))

/-- R170, R171: CKSUM, with the two uppercase hex digits of its value. -/
def Obligations.CksumXorsBytes : Prop :=
  ∀ s : State,
    (256 < s.op0 + s.op1 → ∃ t, exec .cksum s = .next t ∧ Fails s t .cbufRange 0)
    ∧ (s.op0 + s.op1 ≤ 256 →
        let x := ((List.range s.op1).map fun i => s.byte (s.op0 + i)).foldr (· ^^^ ·) 0
        let digit := fun h : Nat => if h ≤ 9 then 0x30 + h else 0x37 + h
        ∃ t, exec .cksum s = .next t
          ∧ Completes s t (x.setWidth 32) (BitVec.ofNat 32 (digit (x.toNat / 16))) (BitVec.ofNat 32 (digit (x.toNat % 16))) 0
          ∧ StoresNothing s t)

/-- R95, R32: a word that is none of the ten is accepted like any other and completes with error ILLEGAL, ERRINFO the word.
The second clause fixes the latency to 0 turns of the host, in the model's form of it (log entry 2); for other latencies
the acceptance is `CmdWriteAcceptsCommand` and the wait `PendingCommandComesDueUnchanged`. -/
def Obligations.IllegalCommandFails : Prop :=
  (∀ (w : Word) (s : State), ∃ t, exec (.illegal w) s = .next t ∧ Fails s t .illegal w)
    ∧ ∀ (w : Word) (s : State) (rest : List BusEvent), w ∉ assignedWords → s.pending = none →
        s.bus = .write 0x014 0xF w :: rest → s.latencies = [0] →
        ∃ t u, step s = .next t ∧ step t = .next u ∧ u.err = true ∧ u.errcode = .illegal ∧ u.errinfo = w ∧ u.cmd = w
          ∧ u.blen = s.blen ∧ CbufKept s u 0 0 ∧ BbufKept s u 0 0

/-- R17, R33: every engine step ends in `complete` or in `raise`, with BUSY cleared and DONE set; after `raise` the four
results are 0, after `complete` ERRINFO and ERRCODE are. -/
def Obligations.EveryCommandEnds : Prop :=
  ∀ (i : Instr) (s : State), ∃ t, exec i s = .next t ∧ t.pending = none ∧ t.done = true
    ∧ ((t.err = false ∧ t.errcode = .noError ∧ t.errinfo = 0)
      ∨ (t.err = true ∧ t.errcode ≠ .noError ∧ t.res0 = 0 ∧ t.res1 = 0 ∧ t.res2 = 0 ∧ t.res3 = 0))

/-- R202, over all commands: one that ends with ERR set has changed no buffer, BLEN or WRAP, and no host register. -/
def Obligations.FailedCommandChangesNothingElse : Prop :=
  ∀ (i : Instr) (s t : State), exec i s = .next t → t.err = true → Fails s t t.errcode t.errinfo

/-- R30, R24, R25, R27, over all commands: the engine never writes CTRL, OVR, CMD or the operands. -/
def Obligations.EngineLeavesHostRegisters : Prop :=
  ∀ (i : Instr) (s t : State), exec i s = .next t → EngineKeeps s t

/-- R110, R140, R211: WRAP changes only in a WRU or WRS that completes without error, and only to 1. -/
def Obligations.WrapSetOnlyByPacking : Prop :=
  ∀ (i : Instr) (s t : State), exec i s = .next t → t.wrap ≠ s.wrap →
    (i = .wru ∨ i = .wrs) ∧ t.err = false ∧ t.wrap = true

/-- R28, R110, R140: which commands may write CBUF, BBUF and BLEN; every other one leaves them. -/
def Obligations.OnlyNamedCommandsStore : Prop :=
  ∀ (i : Instr) (s t : State), exec i s = .next t →
    ((i ≠ .rdtxt ∧ i ≠ .armenc) → CbufKept s t 0 0)
    ∧ ((i ≠ .wru ∧ i ≠ .wrs ∧ i ≠ .wrtxt ∧ i ≠ .armdec) → BbufKept s t 0 0 ∧ t.blen = s.blen)

/-- R65: the CBUF window, little-endian byte lanes; a write changes the four bytes of the word and no other state. -/
def Obligations.CbufWindowIsLittleEndian : Prop :=
  ∀ k < 64, ∀ (s : State) (w : Word) (rest : List BusEvent), s.pending = none →
    (s.bus = .read (BitVec.ofNat 12 (0x400 + 4 * k)) 0xF :: rest →
      ∃ t v, step s = .next t ∧ t.response = some { status := .okay, data := some v } ∧ BlockKept s t
        ∧ ∀ j < 4, v.extractLsb' (8 * j) 8 = s.byte (4 * k + j))
    ∧ (s.bus = .write (BitVec.ofNat 12 (0x400 + 4 * k)) 0xF w :: rest →
      ∃ t, step s = .next t ∧ t.response = some { status := .okay, data := none }
        ∧ (∀ j < 4, t.byte (4 * k + j) = w.extractLsb' (8 * j) 8) ∧ CbufKept s t (4 * k) 4
        ∧ { t with cbuf := s.cbuf, wait := s.wait, bus := s.bus, response := s.response } = s)

/-- R67: the BBUF window, the lowest-indexed bit the most significant; a write changes the 32 bits of the word and no
other state, BLEN included. -/
def Obligations.BbufWindowIsMsbFirst : Prop :=
  ∀ k < 64, ∀ (s : State) (w : Word) (rest : List BusEvent), s.pending = none →
    (s.bus = .read (BitVec.ofNat 12 (0x800 + 4 * k)) 0xF :: rest →
      ∃ t v, step s = .next t ∧ t.response = some { status := .okay, data := some v } ∧ BlockKept s t
        ∧ ∀ j < 32, v.getLsbD (31 - j) = s.bit (32 * k + j))
    ∧ (s.bus = .write (BitVec.ofNat 12 (0x800 + 4 * k)) 0xF w :: rest →
      ∃ t, step s = .next t ∧ t.response = some { status := .okay, data := none }
        ∧ (∀ j < 32, t.bit (32 * k + j) = w.getLsbD (31 - j)) ∧ BbufKept s t (32 * k) 32
        ∧ { t with bbuf := s.bbuf, wait := s.wait, bus := s.bus, response := s.response } = s)

/-- R26: a write to STATUS clears DONE, WRAP and OVR where its bits 1, 3 and 8 are set, and changes nothing else, also
while a command is pending. -/
def Obligations.StatusWriteClearsFlags : Prop :=
  ∀ (s : State) (w : Word) (rest : List BusEvent), (s.pending = none ∨ s.wait ≠ 0) → s.bus = .write 0x010 0xF w :: rest →
    ∃ t, step s = .next t
      ∧ t.done = (if w.getLsbD 1 then false else s.done) ∧ t.wrap = (if w.getLsbD 3 then false else s.wrap)
      ∧ t.ovr = (if w.getLsbD 8 then false else s.ovr)
      ∧ { t with done := s.done, wrap := s.wrap, ovr := s.ovr, wait := s.wait, bus := s.bus, response := s.response } = s

/-- R32: a write to CMD while idle is accepted: CMD, the latch, BUSY, and DONE, ERR and ERRCODE cleared; every other
register and both buffers as before. -/
def Obligations.CmdWriteAcceptsCommand : Prop :=
  ∀ (s : State) (w : Word) (rest : List BusEvent), s.pending = none → s.bus = .write 0x014 0xF w :: rest →
    ∃ t, step s = .next t ∧ t.cmd = w
      ∧ t.pending = some { word := w, arg0 := s.arg0, arg1 := s.arg1, arg2 := s.arg2, cken := s.cken }
      ∧ t.statusWord.getLsbD 0 = true ∧ t.done = false ∧ t.err = false ∧ t.errcode = .noError
      ∧ { t with cmd := s.cmd, pending := s.pending, done := s.done, err := s.err, errcode := s.errcode, wait := s.wait,
                 latencies := s.latencies, draws := s.draws, bus := s.bus, response := s.response } = s

/-- R62: while a command is pending, a write to any aligned offset but STATUS changes nothing and sets OVR, with response
OKAY; a write to STATUS acts as in R26 and does not set OVR. -/
def Obligations.BusyWriteIsDropped : Prop :=
  ∀ (s : State) (p : Pending) (off : BitVec 12) (w : Word) (rest : List BusEvent), s.pending = some p → s.wait ≠ 0 →
    off.toNat % 4 = 0 → s.bus = .write off 0xF w :: rest →
    ∃ t, step s = .next t ∧ t.response = some { status := .okay, data := none }
      ∧ (off ≠ 0x010 → t.ovr = true
          ∧ { t with ovr := s.ovr, wait := s.wait, bus := s.bus, response := s.response } = s)
      ∧ (off = 0x010 →
          t = { s with
                done := s.done && !w.getLsbD 1, wrap := s.wrap && !w.getLsbD 3, ovr := s.ovr && !w.getLsbD 8
                wait := s.wait - 1, bus := rest, response := t.response })

/-- R63: while a command is pending, the reads that return current values, the reserved offsets that return 0, and the
reads that return a free value; the response is OKAY and the read has no side effect. The draw itself is the model's free
value (log entry 3): no clause says which word it is. -/
def Obligations.BusyReadIsCurrentOrFree : Prop :=
  ∀ (s : State) (p : Pending) (off : BitVec 12) (rest : List BusEvent), s.pending = some p → s.wait ≠ 0 →
    off.toNat % 4 = 0 → s.bus = .read off 0xF :: rest →
    ∃ t v, step s = .next t ∧ t.response = some { status := .okay, data := some v } ∧ BlockKept s t
      ∧ (off = 0x000 → v = 0x41495336) ∧ (off = 0x004 → v = 1) ∧ (off = 0x008 → v = 0x08000100)
      ∧ (off = 0x00C → v = s.ctrlWord) ∧ (off = 0x010 → v = s.statusWord) ∧ (off = 0x014 → v = s.cmd)
      ∧ (off = 0x020 → v = s.arg0) ∧ (off = 0x024 → v = s.arg1) ∧ (off = 0x028 → v = s.arg2)
      ∧ ((off = 0x018 ∨ off = 0x01C ∨ off = 0x030 ∨ off = 0x034 ∨ off = 0x038 ∨ off = 0x03C
          ∨ (0x400 ≤ off.toNat ∧ off.toNat < 0x500) ∨ (0x800 ≤ off.toNat ∧ off.toNat < 0x900)) →
            v = Config.busyRead s.draws ∧ t.draws = s.draws + 1)
      ∧ ((off = 0x02C ∨ (0x040 ≤ off.toNat ∧ off.toNat < 0x400) ∨ (0x500 ≤ off.toNat ∧ off.toNat < 0x800)
          ∨ 0x900 ≤ off.toNat) → v = 0)

/-- R61: a misaligned access, or one of fewer than four byte lanes, gets BUSERR, read data 0, and has no effect on any
state, OVR included. -/
def Obligations.BadAccessGetsBuserr : Prop :=
  ∀ (s : State) (off : BitVec 12) (lanes : BitVec 4) (w : Word) (rest : List BusEvent), (s.pending = none ∨ s.wait ≠ 0) →
    (off.toNat % 4 ≠ 0 ∨ lanes ≠ 0xF) →
    (s.bus = .read off lanes :: rest →
      step s = .next { s with wait := s.wait - 1, bus := rest, response := some { status := .buserr, data := some 0 } })
    ∧ (s.bus = .write off lanes w :: rest →
      step s = .next { s with wait := s.wait - 1, bus := rest, response := some { status := .buserr, data := none } })

/-- R71, over all offsets, idle or busy: a read has no side effect on the block; in particular reading STATUS does not
clear DONE. -/
def Obligations.ReadsHaveNoSideEffect : Prop :=
  ∀ (s : State) (off : BitVec 12) (lanes : BitVec 4) (rest : List BusEvent), (s.pending = none ∨ s.wait ≠ 0) →
    s.bus = .read off lanes :: rest → ∃ t, step s = .next t ∧ BlockKept s t ∧ t.epoch = s.epoch ∧ t.bus = rest

/-- R20 - R23 and the reads of R24, R27 - R31 while idle: what each register offset returns. -/
def Obligations.RegisterMapReads : Prop :=
  ∀ (s : State) (off : BitVec 12) (rest : List BusEvent), s.pending = none → s.bus = .read off 0xF :: rest →
    ∀ v, (off, v) ∈ [((0x000 : BitVec 12), (0x41495336 : Word)), (0x004, 0x00000001), (0x008, 0x08000100),
        (0x00C, BitVec.ofNat 32 (s.cken.toNat + 2 * s.ie.toNat)), (0x014, s.cmd), (0x018, BitVec.ofNat 32 s.blen),
        (0x01C, s.errinfo), (0x020, s.arg0), (0x024, s.arg1), (0x028, s.arg2), (0x030, s.res0), (0x034, s.res1),
        (0x038, s.res2), (0x03C, s.res3)] →
      ∃ t, step s = .next t ∧ t.response = some { status := .okay, data := some v }

/-- R25: the layout of STATUS as the host reads it, with the error codes of R200. -/
def Obligations.StatusReadLayout : Prop :=
  ∀ (s : State) (rest : List BusEvent), (s.pending = none ∨ s.wait ≠ 0) → s.bus = .read 0x010 0xF :: rest →
    ∃ t v, step s = .next t ∧ t.response = some { status := .okay, data := some v }
      ∧ v.getLsbD 0 = s.pending.isSome ∧ v.getLsbD 1 = s.done ∧ v.getLsbD 2 = s.err ∧ v.getLsbD 3 = s.wrap
      ∧ v.getLsbD 8 = s.ovr ∧ v.extractLsb' 9 23 = 0
      ∧ v.extractLsb' 4 4 = (match s.errcode with
          | .noError => 0 | .illegal => 1 | .badLen => 2 | .cbufRange => 3 | .bitRange => 4 | .bbufFull => 5
          | .badFill => 6 | .badArmor => 7)

/-- R64: a reserved offset reads 0 and ignores writes, with response OKAY, while no command is pending. -/
def Obligations.ReservedOffsetsReadZero : Prop :=
  ∀ (s : State) (off : BitVec 12) (w : Word) (rest : List BusEvent), s.pending = none → off.toNat % 4 = 0 →
    (off = 0x02C ∨ (0x040 ≤ off.toNat ∧ off.toNat < 0x400) ∨ (0x500 ≤ off.toNat ∧ off.toNat < 0x800)
      ∨ 0x900 ≤ off.toNat) →
    (s.bus = .read off 0xF :: rest → step s = .next
      { s with wait := s.wait - 1, bus := rest, response := some { status := .okay, data := some 0 } })
    ∧ (s.bus = .write off 0xF w :: rest → step s = .next
      { s with wait := s.wait - 1, bus := rest, response := some { status := .okay, data := none } })

/-- R24, R28, R30 while idle: writes to CTRL, BLEN and the operand registers, each changing that register alone; BLEN takes
min(w, BBUF_BITS). -/
def Obligations.HostWritesOneRegister : Prop :=
  ∀ (s : State) (w : Word) (rest : List BusEvent), s.pending = none →
    let after := { s with wait := s.wait - 1, bus := rest, response := some { status := .okay, data := none } }
    (s.bus = .write 0x00C 0xF w :: rest → step s = .next { after with cken := w.getLsbD 0, ie := w.getLsbD 1 })
    ∧ (s.bus = .write 0x018 0xF w :: rest →
        step s = .next { after with blen := if w.toNat ≤ 2048 then w.toNat else 2048 })
    ∧ (s.bus = .write 0x020 0xF w :: rest → step s = .next { after with arg0 := w })
    ∧ (s.bus = .write 0x024 0xF w :: rest → step s = .next { after with arg1 := w })
    ∧ (s.bus = .write 0x028 0xF w :: rest → step s = .next { after with arg2 := w })

/-- R20: a write to a read-only register changes nothing, while no command is pending. -/
def Obligations.ReadOnlyRegistersKeep : Prop :=
  ∀ (s : State) (off : BitVec 12) (w : Word) (rest : List BusEvent), s.pending = none →
    off ∈ [(0x000 : BitVec 12), 0x004, 0x008, 0x01C, 0x030, 0x034, 0x038, 0x03C] → s.bus = .write off 0xF w :: rest →
    step s = .next { s with wait := s.wait - 1, bus := rest, response := some { status := .okay, data := none } }

/-- R34, R210: `irq` is low after reset, raised when a command completes, with or without an error, while IE = 1, or when
IE is written 1 while DONE = 1, and cleared by writing 1 to STATUS bit 1, by accepting a command, and by IE = 0. -/
def Obligations.IrqFollowsDoneAndIe : Prop :=
  State.reset.irq = false ∧ (∀ s : State, s.irq = true ↔ s.done = true ∧ s.ie = true)
    ∧ (∀ (i : Instr) (s t : State), exec i s = .next t → t.irq = s.ie)
    ∧ ∀ (s : State) (w : Word) (rest : List BusEvent),
        (s.pending = none → s.bus = .write 0x014 0xF w :: rest → ∃ t, step s = .next t ∧ t.irq = false)
        ∧ ((s.pending = none ∨ s.wait ≠ 0) → s.bus = .write 0x010 0xF w :: rest →
            ∃ t, step s = .next t ∧ t.irq = (s.irq && !w.getLsbD 1))
        ∧ (s.pending = none → s.bus = .write 0x00C 0xF w :: rest →
            ∃ t, step s = .next t ∧ t.irq = (s.done && w.getLsbD 1))

/-- R230: the registers as the host reads them, the latch and irq: after reset, and after every turn in which the reset
input is asserted, whether or not a command is pending. -/
def Obligations.ResetRegisters : Prop :=
  let registers := fun s : State =>
    [Location.id, .version, .cfg, .ctrl, .status, .cmd, .blen, .errinfo, .arg0, .arg1, .arg2, .res0, .res1, .res2, .res3].map
      s.valueAt
  let initial : List Word := [0x41495336, 0x00000001, 0x08000100, 0x00000001, 0, 0, 0, 0, 0, 0, 0, 0, 0, 0, 0]
  (registers State.reset = initial ∧ State.reset.pending = none ∧ State.reset.irq = false)
    ∧ ∀ (s : State) (rest : List BusEvent), (s.pending = none ∨ s.wait ≠ 0) → s.bus = .reset :: rest →
        ∃ t, step s = .next t ∧ registers t = initial ∧ t.pending = none ∧ t.irq = false ∧ t.bus = rest

/-- R230 - R232: a reset, also one that abandons a pending command, gives every register its reset value, empties the
latch, and leaves every cell of both buffers unwritten, under a draw of its own (how the draw is numbered is the model's
choice, log entry 1). -/
def Obligations.ResetAbandonsCommand : Prop :=
  ∀ (s : State) (rest : List BusEvent), (s.pending = none ∨ s.wait ≠ 0) → s.bus = .reset :: rest →
    ∃ t, step s = .next t ∧ t.cken = true ∧ t.ie = false ∧ t.statusWord = 0 ∧ t.cmd = 0 ∧ t.blen = 0 ∧ t.errinfo = 0
      ∧ t.arg0 = 0 ∧ t.arg1 = 0 ∧ t.arg2 = 0 ∧ t.res0 = 0 ∧ t.res1 = 0 ∧ t.res2 = 0 ∧ t.res3 = 0 ∧ t.pending = none
      ∧ t.irq = false ∧ (∀ a, t.byte a = Config.unwrittenByte (s.epoch + 1) a)
      ∧ (∀ i, t.bit i = Config.unwrittenBit (s.epoch + 1) i) ∧ t.bus = rest

/-- The invariant holds after reset. -/
def Obligations.ResetMeetsInvariant : Prop := Inv State.reset

/-- R25, R28, R32, R29, R31 and the canonical form of both buffers: every step keeps the invariant. -/
def Obligations.StepKeepsInvariant : Prop := ∀ s t : State, Inv s → step s = .next t → Inv t

/-- R25, R62, R203: OVR is set only by a full aligned write, to an offset other than STATUS, while a command is pending. -/
def Obligations.OvrSetOnlyByDroppedWrite : Prop :=
  ∀ s t : State, step s = .next t → s.ovr = false → t.ovr = true →
    ∃ (p : Pending) (off : BitVec 12) (w : Word) (rest : List BusEvent),
      s.pending = some p ∧ s.bus = .write off 0xF w :: rest ∧ off.toNat % 4 = 0 ∧ off ≠ 0x010

/-- R25, R75, R232: BUSY falls only at the pending command's engine step, which sets DONE in the same step, or at a reset;
and DONE is set only at an engine step. -/
def Obligations.BusyFallsOnlyAtCompletionOrReset : Prop :=
  ∀ s t : State, step s = .next t →
    (∀ p, s.pending = some p → t.pending = none →
      (s.wait = 0 ∧ t.done = true ∧ exec (decode p.word) s = .next t) ∨ ∃ rest, s.bus = .reset :: rest)
    ∧ (s.done = false → t.done = true → ∃ p, s.pending = some p ∧ s.wait = 0 ∧ t.pending = none)

/-- R124, first law: a value that fits in L bits leaves WRAP unchanged and is read back by RDU at the old BLEN. -/
def Obligations.UnsignedFieldRoundTrip : Prop :=
  ∀ (s : State) (v a2 b2 : Word) (L : Nat), L ≤ 32 → s.blen + L ≤ 2048 → v.toNat < 2 ^ L →
    ∃ t u, exec .wru (s.issue 0x18 v (BitVec.ofNat 32 L) a2) = .next t ∧ t.err = false ∧ t.wrap = s.wrap
      ∧ exec .rdu (t.issue 0x10 (BitVec.ofNat 32 s.blen) (BitVec.ofNat 32 L) b2) = .next u
      ∧ u.err = false ∧ u.res0 = v

/-- R124, second law: a signed value that fits in L ≥ 1 bits leaves WRAP unchanged and is read back by RDS. -/
def Obligations.SignedFieldRoundTrip : Prop :=
  ∀ (s : State) (v a2 b2 : Word) (L : Nat), 1 ≤ L → L ≤ 32 → s.blen + L ≤ 2048 →
    -(2 ^ (L - 1) : Int) ≤ v.toInt → v.toInt < 2 ^ (L - 1) →
    ∃ t u, exec .wrs (s.issue 0x19 v (BitVec.ofNat 32 L) a2) = .next t ∧ t.err = false ∧ t.wrap = s.wrap
      ∧ exec .rds (t.issue 0x11 (BitVec.ofNat 32 s.blen) (BitVec.ofNat 32 L) b2) = .next u
      ∧ u.err = false ∧ u.res0 = v

/-- R124, third law: text of mapped characters that neither starts with a space nor ends with a space or `@` is read back
uppercased. -/
def Obligations.TextRoundTrip : Prop :=
  ∀ (s : State) (a m n d : Word), a.toNat + m.toNat ≤ 256 → s.blen + 6 * n.toNat ≤ 2048 → d.toNat + n.toNat ≤ 256 →
    m.toNat ≤ n.toNat →
    (∀ k < m.toNat, 0x20 ≤ (upper (s.byte (a.toNat + k))).toNat ∧ (upper (s.byte (a.toNat + k))).toNat ≤ 0x5F) →
    (0 < m.toNat → upper (s.byte a.toNat) ≠ 0x20 ∧ upper (s.byte (a.toNat + (m.toNat - 1))) ≠ 0x20
      ∧ upper (s.byte (a.toNat + (m.toNat - 1))) ≠ 0x40) →
    ∃ t u, exec .wrtxt (s.issue 0x1A a m n) = .next t ∧ t.err = false
      ∧ exec .rdtxt (t.issue 0x12 (BitVec.ofNat 32 s.blen) n d) = .next u ∧ u.err = false ∧ u.res0 = m
      ∧ ∀ k < m.toNat, u.byte (d.toNat + k) = upper (s.byte (a.toNat + k))

/-- R151: ARMENC of L bits followed by ARMDEC of its output with its pad count gives the same L bits at bit 0. -/
def Obligations.ArmorRoundTrip : Prop :=
  ∀ (s : State) (d i L : Word), d.toNat + (L.toNat + 5) / 6 ≤ 256 → i.toNat + L.toNat ≤ s.blen →
    ∃ t u, exec .armenc (s.issue 0x21 d i L) = .next t ∧ t.err = false
      ∧ exec .armdec (t.issue 0x20 d t.res0 t.res1) = .next u ∧ u.err = false ∧ u.blen = L.toNat
      ∧ ∀ k < L.toNat, u.bit k = s.bit (i.toNat + k)

/-- R151, the reverse direction, for a fill of at most 5 bits (with a larger fill fewer than n characters carry the
remaining bits, log entry 14): ARMDEC of a payload of armor characters whose dropped bits are 0, followed by ARMENC of all its bits,
writes the same bytes. -/
def Obligations.PayloadRoundTrip : Prop :=
  ∀ (s : State) (a n f d x : Word), a.toNat + n.toNat ≤ 256 → d.toNat + n.toNat ≤ 256 → f.toNat ≤ 5 →
    f.toNat ≤ 6 * n.toNat →
    (∀ k < n.toNat, (0x30 ≤ (s.byte (a.toNat + k)).toNat ∧ (s.byte (a.toNat + k)).toNat ≤ 0x57)
      ∨ (0x60 ≤ (s.byte (a.toNat + k)).toNat ∧ (s.byte (a.toNat + k)).toNat ≤ 0x77)) →
    (∀ j < f.toNat, (unarmor (s.byte (a.toNat + n.toNat - 1))).testBit j = false) →
    x = BitVec.ofNat 32 (6 * n.toNat - f.toNat) →
    ∃ t u, exec .armdec (s.issue 0x20 a n f) = .next t ∧ t.err = false
      ∧ exec .armenc (t.issue 0x21 d 0 x) = .next u ∧ u.err = false ∧ u.res0 = n
      ∧ ∀ k < n.toNat, u.byte (d.toNat + k) = s.byte (a.toNat + k)

/-- R163, R170: for a matching line at a whose `*` is at offset t, CKSUM of a+1, t-1 gives the computed checksum that PARSE
reports. -/
def Obligations.CksumGivesSentenceChecksum : Prop :=
  ∀ (s : State) (a n x y : Word) (e : Envelope), a.toNat + n.toNat ≤ 256 → IsLine (s.readBytes a.toNat n.toNat) e →
    ∃ t u, exec .parse (s.issue 0x30 a n x) = .next t ∧ t.err = false
      ∧ exec .cksum (t.issue 0x31 (BitVec.ofNat 32 (a.toNat + 1)) (BitVec.ofNat 32 (e.star - 1)) y) = .next u
      ∧ u.err = false ∧ u.res0.toNat = t.res3.toNat % 256

/-- R37, over all commands: bits at indices ≥ BLEN have no effect on a command: two states that differ only there end
alike, and their bit strings agree. -/
def Obligations.BitsPastBlenAreNotRead : Prop :=
  ∀ (i : Instr) (s t u : State) (bb : Memory Bool), (∀ k < s.blen, { s with bbuf := bb }.bit k = s.bit k) →
    exec i s = .next t → exec i { s with bbuf := bb } = .next u →
    { u with bbuf := t.bbuf } = t ∧ ∀ k < t.blen, u.bit k = t.bit k

/-- R150: ARMENC reads no bit outside the L bits from s on, even below BLEN. -/
def Obligations.ArmencReadsOnlyItsBits : Prop :=
  ∀ (s t u : State) (bb : Memory Bool),
    (∀ k, s.op1 ≤ k → k < s.op1 + s.op2 → { s with bbuf := bb }.bit k = s.bit k) →
    exec .armenc s = .next t → exec .armenc { s with bbuf := bb } = .next u → { u with bbuf := t.bbuf } = t

/-- R17, R161, R164, R165 and R36: PARSE's answer depends on the line's bytes and the latched operands and CKEN alone:
nothing an earlier PARSE or any other command left matters. -/
def Obligations.ParseDependsOnItsLineOnly : Prop :=
  ∀ s s' t t' : State, s.latched = s'.latched → (∀ k < s.op1, s.byte (s.op0 + k) = s'.byte (s.op0 + k)) →
    exec .parse s = .next t → exec .parse s' = .next t' →
    t.res0 = t'.res0 ∧ t.res1 = t'.res1 ∧ t.res2 = t'.res2 ∧ t.res3 = t'.res3 ∧ t.err = t'.err ∧ t.errcode = t'.errcode
      ∧ t.errinfo = t'.errinfo

/-- R96, R97: `poll`, once its three statements stand at index `n` of a host program and h15 holds the STATUS word just
read, stays in its loop exactly while BUSY is 1. Here: its read returns STATUS, and its branch goes back iff the masked
word is not 0. -/
def Obligations.PollLoopsWhileBusy : Prop :=
  ∀ (p : HostProgram) (n : Nat), p.halted = false → p.block.bus = [] → p.block.engineDue = false →
    p.code[n]? = (expandPoll n)[0]? → p.code[n + 1]? = (expandPoll n)[1]? → p.code[n + 2]? = (expandPoll n)[2]? →
    (p.pc = n → p.step.pc = n + 1 ∧ p.step.h[15] = p.block.statusWord)
    ∧ (p.pc = n + 1 → p.step.pc = n + 2 ∧ (p.step.h[15] = 0 ↔ p.h[15].getLsbD 0 = false))
    ∧ (p.pc = n + 2 → p.step.pc = if p.h[15] = 0 then n + 3 else n)

/-- R97, R92: with the block idle, the first statements of a command's pseudo-instruction make the block accept that
command, with the operands it lists in ARG0, ARG1 (and ARG2), and the host's program then stands at the poll. -/
def Obligations.CommandStatementsIssueTheirCommand : Prop :=
  ∀ (p : HostProgram) (x y z : HostValue), p.pc = 0 → p.halted = false → p.block.pending = none → p.block.bus = [] →
    (∀ c ∈ [(Pseudo.rdu x y, (0x10 : Word)), (.rds x y, 0x11), (.wru x y, 0x18), (.wrs x y, 0x19), (.parse x y, 0x30),
        (.cksum x y, 0x31)], p.code = c.1.expand 0 →
      (HostProgram.run 3 p).pc = 3 ∧ (HostProgram.run 3 p).block.pending = some
        { word := c.2, arg0 := p.value x, arg1 := p.value y, arg2 := p.block.arg2, cken := p.block.cken })
    ∧ ∀ c ∈ [(Pseudo.rdtxt x y z, (0x12 : Word)), (.wrtxt x y z, 0x1A), (.armdec x y z, 0x20), (.armenc x y z, 0x21)],
        p.code = c.1.expand 0 →
      (HostProgram.run 4 p).pc = 4 ∧ (HostProgram.run 4 p).block.pending = some
        { word := c.2, arg0 := p.value x, arg1 := p.value y, arg2 := p.value z, cken := p.block.cken }

/-- R97, R244: with the block idle, `ldstr a, text` puts the text at CBUF address `a`, zeros up to the end of its last
word, and leaves every other byte and all other state of the block. -/
def Obligations.LdstrWritesItsText : Prop :=
  ∀ (p : HostProgram) (a : Nat) (text : List Byte), p.code = Pseudo.expand 0 (.ldstr a text) → p.pc = 0 →
    p.halted = false → p.block.pending = none → p.block.bus = [] → a % 4 = 0 → a + 4 * ((text.length + 3) / 4) ≤ 256 →
    let q := HostProgram.run ((text.length + 3) / 4) p
    (∀ i (h : i < text.length), q.block.byte (a + i) = text[i])
      ∧ (∀ i, text.length ≤ i → i < 4 * ((text.length + 3) / 4) → q.block.byte (a + i) = 0)
      ∧ CbufKept p.block q.block a (4 * ((text.length + 3) / 4))
      ∧ { q.block with
            cbuf := p.block.cbuf, wait := p.block.wait, bus := p.block.bus, response := p.block.response } = p.block

/-- R13, R14: the 6-bit character table, its inverse, and the ASCII uppercasing, by their formulas. `RdtxtDecodesText` and
`WrtxtPacksText` are stated in these functions. -/
def Obligations.CharacterTablesFollowTheirFormulas : Prop :=
  (∀ v < 64, (v ≤ 31 → (chr6 v).toNat = v + 64) ∧ (32 ≤ v → (chr6 v).toNat = v))
    ∧ (∀ c : Byte, (0x40 ≤ c.toNat → c.toNat ≤ 0x5F → inv6 c = c.toNat - 64)
        ∧ (0x20 ≤ c.toNat → c.toNat ≤ 0x3F → inv6 c = c.toNat) ∧ ((c.toNat < 0x20 ∨ 0x5F < c.toNat) → inv6 c = 0))
    ∧ ∀ c : Byte, (0x61 ≤ c.toNat → c.toNat ≤ 0x7A → (upper c).toNat = c.toNat - 0x20)
        ∧ ((c.toNat < 0x61 ∨ 0x7A < c.toNat) → upper c = c)

/-- R15, R16: the armor and de-armor maps by their formulas, the bytes 0x58..0x5F that only de-armoring knows included.
`ArmdecReplacesBitString` and `ArmencWritesArmor` are stated in these functions. -/
def Obligations.ArmorMapsFollowTheirFormulas : Prop :=
  (∀ v < 64, (v ≤ 39 → (armor v).toNat = v + 48) ∧ (40 ≤ v → (armor v).toNat = v + 56))
    ∧ (∀ c : Byte, 0x30 ≤ c.toNat → c.toNat ≤ 0x77 → unarmor c < 64
        ∧ (c.toNat - 48 ≤ 40 → unarmor c = c.toNat - 48) ∧ (40 < c.toNat - 48 → unarmor c = c.toNat - 48 - 8))
    ∧ unarmor 0x58 = 40 ∧ ∀ k < 7, unarmor (BitVec.ofNat 8 (0x59 + k)) = 33 + k
end

