-- ==== Sys2Proof/Laws/Memory.lean ====
section
/-! SUPPORT. Reading a cell after a store, and that stores keep the canonical form of a buffer. -/

namespace Sys2Proof.Machine

variable {α : Type}

@[simp] theorem Memory.cell_nil (a : Nat) : Memory.cell ([] : Memory α) a = none := rfl

/-- Read after write: the stored cell holds the value, every other cell is as before. -/
theorem Memory.cell_store (m : Memory α) (a b : Nat) (v : α) :
    (m.store a v).cell b = if b = a then some v else m.cell b := by
  induction m with
  | nil => simp [Memory.store, Memory.cell]
  | cons p rest ih =>
    obtain ⟨c, u⟩ := p
    simp only [Memory.store]
    split
    · simp [Memory.cell]
    · split
      · next h => subst h; simp only [Memory.cell]; split <;> simp_all
      · simp only [Memory.cell, ih]
        split
        · next h => subst h; split <;> simp_all
        · rfl

/-- Read after a run of writes: inside the run its value, outside it the cell as before. -/
theorem Memory.cell_storeAll (m : Memory α) (a b : Nat) (vs : List α) :
    (m.storeAll a vs).cell b = if a ≤ b ∧ b < a + vs.length then vs[b - a]? else m.cell b := by
  induction vs generalizing m a with
  | nil => simp only [Memory.storeAll, List.length_nil]; split <;> [omega; rfl]
  | cons v rest ih =>
    simp only [Memory.storeAll, ih, Memory.cell_store, List.length_cons]
    rcases Nat.lt_trichotomy a b with h | h | h
    · obtain ⟨d, rfl⟩ : ∃ d, b = a + 1 + d := ⟨b - (a + 1), by omega⟩
      have e : a + 1 + d - a = d + 1 := by omega
      simp only [e, List.getElem?_cons_succ, show a + 1 + d ≠ a by omega, if_false]
      congr 1
      · simp; omega
      · simp
    · subst h; simp
    · simp [show ¬ a + 1 ≤ b by omega, show ¬ a ≤ b by omega, show b ≠ a by omega]

theorem Memory.cell_storeAll_outside (m : Memory α) (a b : Nat) (vs : List α) (h : b < a ∨ a + vs.length ≤ b) :
    (m.storeAll a vs).cell b = m.cell b := by
  rw [Memory.cell_storeAll, if_neg (by omega)]

theorem Memory.wfFrom_store (m : Memory α) (lo size a : Nat) (v : α) (hlo : lo ≤ a) (ha : a < size)
    (h : m.wfFrom lo size = true) : (m.store a v).wfFrom lo size = true := by
  induction m generalizing lo with
  | nil => simp [Memory.store, Memory.wfFrom, hlo, ha]
  | cons p rest ih =>
    obtain ⟨b, u⟩ := p
    simp only [Memory.wfFrom, Bool.and_eq_true, decide_eq_true_eq] at h
    simp only [Memory.store]
    split
    · simp only [Memory.wfFrom, Bool.and_eq_true, decide_eq_true_eq]
      exact ⟨⟨hlo, ha⟩, ⟨by omega, h.1.2⟩, h.2⟩
    · split
      · next e =>
        subst e
        simp only [Memory.wfFrom, Bool.and_eq_true, decide_eq_true_eq]
        exact ⟨⟨hlo, ha⟩, h.2⟩
      · simp only [Memory.wfFrom, Bool.and_eq_true, decide_eq_true_eq]
        exact ⟨h.1, ih (b + 1) (by omega) h.2⟩

/-- A store inside the buffer keeps the canonical form. -/
theorem Memory.wf_store (m : Memory α) (size a : Nat) (v : α) (ha : a < size) (h : m.wf size = true) :
    (m.store a v).wf size = true :=
  Memory.wfFrom_store m 0 size a v (Nat.zero_le a) ha h

/-- A run of stores inside the buffer keeps the canonical form. -/
theorem Memory.wf_storeAll (m : Memory α) (size a : Nat) (vs : List α) (ha : a + vs.length ≤ size)
    (h : m.wf size = true) : (m.storeAll a vs).wf size = true := by
  induction vs generalizing m a with
  | nil => exact h
  | cons v rest ih =>
    simp only [List.length_cons] at ha
    exact ih _ _ (by omega) (Memory.wf_store m size a v (by omega) h)

@[simp] theorem Memory.wf_nil (size : Nat) : Memory.wf size ([] : Memory α) = true := rfl

theorem Memory.cell_below (m : Memory α) (lo size a : Nat) (h : m.wfFrom lo size = true) (ha : a < lo) :
    m.cell a = none := by
  induction m generalizing lo with
  | nil => rfl
  | cons p rest ih =>
    obtain ⟨b, u⟩ := p
    simp only [Memory.wfFrom, Bool.and_eq_true, decide_eq_true_eq] at h
    rw [Memory.cell, if_neg (by omega)]
    exact ih (b + 1) h.2 (by omega)

/-- The form is canonical: two buffers with the same cells are the same list. -/
theorem Memory.eq_of_cells (m m' : Memory α) (lo size : Nat) (h : m.wfFrom lo size = true)
    (h' : m'.wfFrom lo size = true) (e : ∀ a, m.cell a = m'.cell a) : m = m' := by
  induction m generalizing m' lo with
  | nil =>
    cases m' with
    | nil => rfl
    | cons q rest' => have := e q.1; simp [Memory.cell] at this
  | cons p rest ih =>
    cases m' with
    | nil => have := e p.1; simp [Memory.cell] at this
    | cons q rest' =>
      obtain ⟨b, u⟩ := p
      obtain ⟨c, w⟩ := q
      have hb := h
      have hc := h'
      simp only [Memory.wfFrom, Bool.and_eq_true, decide_eq_true_eq] at hb hc
      have below := Memory.cell_below rest (b + 1) size b hb.2 (by omega)
      have below' := Memory.cell_below rest' (c + 1) size c hc.2 (by omega)
      have hbc : b = c := by
        rcases Nat.lt_trichotomy b c with l | l | l
        · have := e b
          rw [Memory.cell, if_pos rfl, Memory.cell, if_neg (by omega),
            Memory.cell_below rest' (c + 1) size b hc.2 (by omega)] at this
          cases this
        · exact l
        · have := e c
          rw [Memory.cell, if_neg (by omega), Memory.cell, if_pos rfl,
            Memory.cell_below rest (b + 1) size c hb.2 (by omega)] at this
          cases this
      subst hbc
      have hu : u = w := by have := e b; simpa [Memory.cell] using this
      subst hu
      congr 1
      refine ih rest' (b + 1) hb.2 hc.2 fun a => ?_
      by_cases ha : a = b
      · subst ha; rw [below, below']
      · have := e a
        rwa [Memory.cell, if_neg ha, Memory.cell, if_neg ha] at this

end Sys2Proof.Machine
end

