-- ==== Sys2Proof/Laws/State.lean ====
section
/-! SUPPORT. One lemma per field and per named update of State, each true by rfl, so that no later proof unfolds a record
update. -/

namespace Sys2Proof.Machine

variable (s : State)

@[simp] theorem State.writeBytes_cken (a : Nat) (bs : List Byte) : (s.writeBytes a bs).cken = s.cken := rfl
@[simp] theorem State.writeBytes_ie (a : Nat) (bs : List Byte) : (s.writeBytes a bs).ie = s.ie := rfl
@[simp] theorem State.writeBytes_done (a : Nat) (bs : List Byte) : (s.writeBytes a bs).done = s.done := rfl
@[simp] theorem State.writeBytes_err (a : Nat) (bs : List Byte) : (s.writeBytes a bs).err = s.err := rfl
@[simp] theorem State.writeBytes_wrap (a : Nat) (bs : List Byte) : (s.writeBytes a bs).wrap = s.wrap := rfl
@[simp] theorem State.writeBytes_ovr (a : Nat) (bs : List Byte) : (s.writeBytes a bs).ovr = s.ovr := rfl
@[simp] theorem State.writeBytes_errcode (a : Nat) (bs : List Byte) : (s.writeBytes a bs).errcode = s.errcode := rfl
@[simp] theorem State.writeBytes_errinfo (a : Nat) (bs : List Byte) : (s.writeBytes a bs).errinfo = s.errinfo := rfl
@[simp] theorem State.writeBytes_cmd (a : Nat) (bs : List Byte) : (s.writeBytes a bs).cmd = s.cmd := rfl
@[simp] theorem State.writeBytes_blen (a : Nat) (bs : List Byte) : (s.writeBytes a bs).blen = s.blen := rfl
@[simp] theorem State.writeBytes_arg0 (a : Nat) (bs : List Byte) : (s.writeBytes a bs).arg0 = s.arg0 := rfl
@[simp] theorem State.writeBytes_arg1 (a : Nat) (bs : List Byte) : (s.writeBytes a bs).arg1 = s.arg1 := rfl
@[simp] theorem State.writeBytes_arg2 (a : Nat) (bs : List Byte) : (s.writeBytes a bs).arg2 = s.arg2 := rfl
@[simp] theorem State.writeBytes_res0 (a : Nat) (bs : List Byte) : (s.writeBytes a bs).res0 = s.res0 := rfl
@[simp] theorem State.writeBytes_res1 (a : Nat) (bs : List Byte) : (s.writeBytes a bs).res1 = s.res1 := rfl
@[simp] theorem State.writeBytes_res2 (a : Nat) (bs : List Byte) : (s.writeBytes a bs).res2 = s.res2 := rfl
@[simp] theorem State.writeBytes_res3 (a : Nat) (bs : List Byte) : (s.writeBytes a bs).res3 = s.res3 := rfl
@[simp] theorem State.writeBytes_pending (a : Nat) (bs : List Byte) : (s.writeBytes a bs).pending = s.pending := rfl
@[simp] theorem State.writeBytes_cbuf (a : Nat) (bs : List Byte) : (s.writeBytes a bs).cbuf = s.cbuf.storeAll a bs := rfl
@[simp] theorem State.writeBytes_bbuf (a : Nat) (bs : List Byte) : (s.writeBytes a bs).bbuf = s.bbuf := rfl
@[simp] theorem State.writeBytes_wait (a : Nat) (bs : List Byte) : (s.writeBytes a bs).wait = s.wait := rfl
@[simp] theorem State.writeBytes_latencies (a : Nat) (bs : List Byte) : (s.writeBytes a bs).latencies = s.latencies := rfl
@[simp] theorem State.writeBytes_draws (a : Nat) (bs : List Byte) : (s.writeBytes a bs).draws = s.draws := rfl
@[simp] theorem State.writeBytes_epoch (a : Nat) (bs : List Byte) : (s.writeBytes a bs).epoch = s.epoch := rfl
@[simp] theorem State.writeBytes_bus (a : Nat) (bs : List Byte) : (s.writeBytes a bs).bus = s.bus := rfl
@[simp] theorem State.writeBytes_response (a : Nat) (bs : List Byte) : (s.writeBytes a bs).response = s.response := rfl

@[simp] theorem State.writeBits_cken (i : Nat) (bs : List Bool) : (s.writeBits i bs).cken = s.cken := rfl
@[simp] theorem State.writeBits_ie (i : Nat) (bs : List Bool) : (s.writeBits i bs).ie = s.ie := rfl
@[simp] theorem State.writeBits_done (i : Nat) (bs : List Bool) : (s.writeBits i bs).done = s.done := rfl
@[simp] theorem State.writeBits_err (i : Nat) (bs : List Bool) : (s.writeBits i bs).err = s.err := rfl
@[simp] theorem State.writeBits_wrap (i : Nat) (bs : List Bool) : (s.writeBits i bs).wrap = s.wrap := rfl
@[simp] theorem State.writeBits_ovr (i : Nat) (bs : List Bool) : (s.writeBits i bs).ovr = s.ovr := rfl
@[simp] theorem State.writeBits_errcode (i : Nat) (bs : List Bool) : (s.writeBits i bs).errcode = s.errcode := rfl
@[simp] theorem State.writeBits_errinfo (i : Nat) (bs : List Bool) : (s.writeBits i bs).errinfo = s.errinfo := rfl
@[simp] theorem State.writeBits_cmd (i : Nat) (bs : List Bool) : (s.writeBits i bs).cmd = s.cmd := rfl
@[simp] theorem State.writeBits_blen (i : Nat) (bs : List Bool) : (s.writeBits i bs).blen = s.blen := rfl
@[simp] theorem State.writeBits_arg0 (i : Nat) (bs : List Bool) : (s.writeBits i bs).arg0 = s.arg0 := rfl
@[simp] theorem State.writeBits_arg1 (i : Nat) (bs : List Bool) : (s.writeBits i bs).arg1 = s.arg1 := rfl
@[simp] theorem State.writeBits_arg2 (i : Nat) (bs : List Bool) : (s.writeBits i bs).arg2 = s.arg2 := rfl
@[simp] theorem State.writeBits_res0 (i : Nat) (bs : List Bool) : (s.writeBits i bs).res0 = s.res0 := rfl
@[simp] theorem State.writeBits_res1 (i : Nat) (bs : List Bool) : (s.writeBits i bs).res1 = s.res1 := rfl
@[simp] theorem State.writeBits_res2 (i : Nat) (bs : List Bool) : (s.writeBits i bs).res2 = s.res2 := rfl
@[simp] theorem State.writeBits_res3 (i : Nat) (bs : List Bool) : (s.writeBits i bs).res3 = s.res3 := rfl
@[simp] theorem State.writeBits_pending (i : Nat) (bs : List Bool) : (s.writeBits i bs).pending = s.pending := rfl
@[simp] theorem State.writeBits_cbuf (i : Nat) (bs : List Bool) : (s.writeBits i bs).cbuf = s.cbuf := rfl
@[simp] theorem State.writeBits_bbuf (i : Nat) (bs : List Bool) : (s.writeBits i bs).bbuf = s.bbuf.storeAll i bs := rfl
@[simp] theorem State.writeBits_wait (i : Nat) (bs : List Bool) : (s.writeBits i bs).wait = s.wait := rfl
@[simp] theorem State.writeBits_latencies (i : Nat) (bs : List Bool) : (s.writeBits i bs).latencies = s.latencies := rfl
@[simp] theorem State.writeBits_draws (i : Nat) (bs : List Bool) : (s.writeBits i bs).draws = s.draws := rfl
@[simp] theorem State.writeBits_epoch (i : Nat) (bs : List Bool) : (s.writeBits i bs).epoch = s.epoch := rfl
@[simp] theorem State.writeBits_bus (i : Nat) (bs : List Bool) : (s.writeBits i bs).bus = s.bus := rfl
@[simp] theorem State.writeBits_response (i : Nat) (bs : List Bool) : (s.writeBits i bs).response = s.response := rfl

@[simp] theorem State.setBlen_cken (n : Nat) : (s.setBlen n).cken = s.cken := rfl
@[simp] theorem State.setBlen_ie (n : Nat) : (s.setBlen n).ie = s.ie := rfl
@[simp] theorem State.setBlen_done (n : Nat) : (s.setBlen n).done = s.done := rfl
@[simp] theorem State.setBlen_err (n : Nat) : (s.setBlen n).err = s.err := rfl
@[simp] theorem State.setBlen_wrap (n : Nat) : (s.setBlen n).wrap = s.wrap := rfl
@[simp] theorem State.setBlen_ovr (n : Nat) : (s.setBlen n).ovr = s.ovr := rfl
@[simp] theorem State.setBlen_errcode (n : Nat) : (s.setBlen n).errcode = s.errcode := rfl
@[simp] theorem State.setBlen_errinfo (n : Nat) : (s.setBlen n).errinfo = s.errinfo := rfl
@[simp] theorem State.setBlen_cmd (n : Nat) : (s.setBlen n).cmd = s.cmd := rfl
@[simp] theorem State.setBlen_blen (n : Nat) : (s.setBlen n).blen = n := rfl
@[simp] theorem State.setBlen_arg0 (n : Nat) : (s.setBlen n).arg0 = s.arg0 := rfl
@[simp] theorem State.setBlen_arg1 (n : Nat) : (s.setBlen n).arg1 = s.arg1 := rfl
@[simp] theorem State.setBlen_arg2 (n : Nat) : (s.setBlen n).arg2 = s.arg2 := rfl
@[simp] theorem State.setBlen_res0 (n : Nat) : (s.setBlen n).res0 = s.res0 := rfl
@[simp] theorem State.setBlen_res1 (n : Nat) : (s.setBlen n).res1 = s.res1 := rfl
@[simp] theorem State.setBlen_res2 (n : Nat) : (s.setBlen n).res2 = s.res2 := rfl
@[simp] theorem State.setBlen_res3 (n : Nat) : (s.setBlen n).res3 = s.res3 := rfl
@[simp] theorem State.setBlen_pending (n : Nat) : (s.setBlen n).pending = s.pending := rfl
@[simp] theorem State.setBlen_cbuf (n : Nat) : (s.setBlen n).cbuf = s.cbuf := rfl
@[simp] theorem State.setBlen_bbuf (n : Nat) : (s.setBlen n).bbuf = s.bbuf := rfl
@[simp] theorem State.setBlen_wait (n : Nat) : (s.setBlen n).wait = s.wait := rfl
@[simp] theorem State.setBlen_latencies (n : Nat) : (s.setBlen n).latencies = s.latencies := rfl
@[simp] theorem State.setBlen_draws (n : Nat) : (s.setBlen n).draws = s.draws := rfl
@[simp] theorem State.setBlen_epoch (n : Nat) : (s.setBlen n).epoch = s.epoch := rfl
@[simp] theorem State.setBlen_bus (n : Nat) : (s.setBlen n).bus = s.bus := rfl
@[simp] theorem State.setBlen_response (n : Nat) : (s.setBlen n).response = s.response := rfl

@[simp] theorem State.append_cken (x : List Bool) : (s.append x).cken = s.cken := rfl
@[simp] theorem State.append_ie (x : List Bool) : (s.append x).ie = s.ie := rfl
@[simp] theorem State.append_done (x : List Bool) : (s.append x).done = s.done := rfl
@[simp] theorem State.append_err (x : List Bool) : (s.append x).err = s.err := rfl
@[simp] theorem State.append_wrap (x : List Bool) : (s.append x).wrap = s.wrap := rfl
@[simp] theorem State.append_ovr (x : List Bool) : (s.append x).ovr = s.ovr := rfl
@[simp] theorem State.append_errcode (x : List Bool) : (s.append x).errcode = s.errcode := rfl
@[simp] theorem State.append_errinfo (x : List Bool) : (s.append x).errinfo = s.errinfo := rfl
@[simp] theorem State.append_cmd (x : List Bool) : (s.append x).cmd = s.cmd := rfl
@[simp] theorem State.append_blen (x : List Bool) : (s.append x).blen = s.blen + x.length := rfl
@[simp] theorem State.append_arg0 (x : List Bool) : (s.append x).arg0 = s.arg0 := rfl
@[simp] theorem State.append_arg1 (x : List Bool) : (s.append x).arg1 = s.arg1 := rfl
@[simp] theorem State.append_arg2 (x : List Bool) : (s.append x).arg2 = s.arg2 := rfl
@[simp] theorem State.append_res0 (x : List Bool) : (s.append x).res0 = s.res0 := rfl
@[simp] theorem State.append_res1 (x : List Bool) : (s.append x).res1 = s.res1 := rfl
@[simp] theorem State.append_res2 (x : List Bool) : (s.append x).res2 = s.res2 := rfl
@[simp] theorem State.append_res3 (x : List Bool) : (s.append x).res3 = s.res3 := rfl
@[simp] theorem State.append_pending (x : List Bool) : (s.append x).pending = s.pending := rfl
@[simp] theorem State.append_cbuf (x : List Bool) : (s.append x).cbuf = s.cbuf := rfl
@[simp] theorem State.append_bbuf (x : List Bool) : (s.append x).bbuf = s.bbuf.storeAll s.blen x := rfl
@[simp] theorem State.append_wait (x : List Bool) : (s.append x).wait = s.wait := rfl
@[simp] theorem State.append_latencies (x : List Bool) : (s.append x).latencies = s.latencies := rfl
@[simp] theorem State.append_draws (x : List Bool) : (s.append x).draws = s.draws := rfl
@[simp] theorem State.append_epoch (x : List Bool) : (s.append x).epoch = s.epoch := rfl
@[simp] theorem State.append_bus (x : List Bool) : (s.append x).bus = s.bus := rfl
@[simp] theorem State.append_response (x : List Bool) : (s.append x).response = s.response := rfl

@[simp] theorem State.setWrapIf_cken (b : Bool) : (s.setWrapIf b).cken = s.cken := rfl
@[simp] theorem State.setWrapIf_ie (b : Bool) : (s.setWrapIf b).ie = s.ie := rfl
@[simp] theorem State.setWrapIf_done (b : Bool) : (s.setWrapIf b).done = s.done := rfl
@[simp] theorem State.setWrapIf_err (b : Bool) : (s.setWrapIf b).err = s.err := rfl
@[simp] theorem State.setWrapIf_wrap (b : Bool) : (s.setWrapIf b).wrap = (s.wrap || b) := rfl
@[simp] theorem State.setWrapIf_ovr (b : Bool) : (s.setWrapIf b).ovr = s.ovr := rfl
@[simp] theorem State.setWrapIf_errcode (b : Bool) : (s.setWrapIf b).errcode = s.errcode := rfl
@[simp] theorem State.setWrapIf_errinfo (b : Bool) : (s.setWrapIf b).errinfo = s.errinfo := rfl
@[simp] theorem State.setWrapIf_cmd (b : Bool) : (s.setWrapIf b).cmd = s.cmd := rfl
@[simp] theorem State.setWrapIf_blen (b : Bool) : (s.setWrapIf b).blen = s.blen := rfl
@[simp] theorem State.setWrapIf_arg0 (b : Bool) : (s.setWrapIf b).arg0 = s.arg0 := rfl
@[simp] theorem State.setWrapIf_arg1 (b : Bool) : (s.setWrapIf b).arg1 = s.arg1 := rfl
@[simp] theorem State.setWrapIf_arg2 (b : Bool) : (s.setWrapIf b).arg2 = s.arg2 := rfl
@[simp] theorem State.setWrapIf_res0 (b : Bool) : (s.setWrapIf b).res0 = s.res0 := rfl
@[simp] theorem State.setWrapIf_res1 (b : Bool) : (s.setWrapIf b).res1 = s.res1 := rfl
@[simp] theorem State.setWrapIf_res2 (b : Bool) : (s.setWrapIf b).res2 = s.res2 := rfl
@[simp] theorem State.setWrapIf_res3 (b : Bool) : (s.setWrapIf b).res3 = s.res3 := rfl
@[simp] theorem State.setWrapIf_pending (b : Bool) : (s.setWrapIf b).pending = s.pending := rfl
@[simp] theorem State.setWrapIf_cbuf (b : Bool) : (s.setWrapIf b).cbuf = s.cbuf := rfl
@[simp] theorem State.setWrapIf_bbuf (b : Bool) : (s.setWrapIf b).bbuf = s.bbuf := rfl
@[simp] theorem State.setWrapIf_wait (b : Bool) : (s.setWrapIf b).wait = s.wait := rfl
@[simp] theorem State.setWrapIf_latencies (b : Bool) : (s.setWrapIf b).latencies = s.latencies := rfl
@[simp] theorem State.setWrapIf_draws (b : Bool) : (s.setWrapIf b).draws = s.draws := rfl
@[simp] theorem State.setWrapIf_epoch (b : Bool) : (s.setWrapIf b).epoch = s.epoch := rfl
@[simp] theorem State.setWrapIf_bus (b : Bool) : (s.setWrapIf b).bus = s.bus := rfl
@[simp] theorem State.setWrapIf_response (b : Bool) : (s.setWrapIf b).response = s.response := rfl

@[simp] theorem State.complete_cken (r0 r1 r2 r3 : Word) : (s.complete r0 r1 r2 r3).cken = s.cken := rfl
@[simp] theorem State.complete_ie (r0 r1 r2 r3 : Word) : (s.complete r0 r1 r2 r3).ie = s.ie := rfl
@[simp] theorem State.complete_done (r0 r1 r2 r3 : Word) : (s.complete r0 r1 r2 r3).done = true := rfl
@[simp] theorem State.complete_err (r0 r1 r2 r3 : Word) : (s.complete r0 r1 r2 r3).err = false := rfl
@[simp] theorem State.complete_wrap (r0 r1 r2 r3 : Word) : (s.complete r0 r1 r2 r3).wrap = s.wrap := rfl
@[simp] theorem State.complete_ovr (r0 r1 r2 r3 : Word) : (s.complete r0 r1 r2 r3).ovr = s.ovr := rfl
@[simp] theorem State.complete_errcode (r0 r1 r2 r3 : Word) : (s.complete r0 r1 r2 r3).errcode = .noError := rfl
@[simp] theorem State.complete_errinfo (r0 r1 r2 r3 : Word) : (s.complete r0 r1 r2 r3).errinfo = 0 := rfl
@[simp] theorem State.complete_cmd (r0 r1 r2 r3 : Word) : (s.complete r0 r1 r2 r3).cmd = s.cmd := rfl
@[simp] theorem State.complete_blen (r0 r1 r2 r3 : Word) : (s.complete r0 r1 r2 r3).blen = s.blen := rfl
@[simp] theorem State.complete_arg0 (r0 r1 r2 r3 : Word) : (s.complete r0 r1 r2 r3).arg0 = s.arg0 := rfl
@[simp] theorem State.complete_arg1 (r0 r1 r2 r3 : Word) : (s.complete r0 r1 r2 r3).arg1 = s.arg1 := rfl
@[simp] theorem State.complete_arg2 (r0 r1 r2 r3 : Word) : (s.complete r0 r1 r2 r3).arg2 = s.arg2 := rfl
@[simp] theorem State.complete_res0 (r0 r1 r2 r3 : Word) : (s.complete r0 r1 r2 r3).res0 = r0 := rfl
@[simp] theorem State.complete_res1 (r0 r1 r2 r3 : Word) : (s.complete r0 r1 r2 r3).res1 = r1 := rfl
@[simp] theorem State.complete_res2 (r0 r1 r2 r3 : Word) : (s.complete r0 r1 r2 r3).res2 = r2 := rfl
@[simp] theorem State.complete_res3 (r0 r1 r2 r3 : Word) : (s.complete r0 r1 r2 r3).res3 = r3 := rfl
@[simp] theorem State.complete_pending (r0 r1 r2 r3 : Word) : (s.complete r0 r1 r2 r3).pending = none := rfl
@[simp] theorem State.complete_cbuf (r0 r1 r2 r3 : Word) : (s.complete r0 r1 r2 r3).cbuf = s.cbuf := rfl
@[simp] theorem State.complete_bbuf (r0 r1 r2 r3 : Word) : (s.complete r0 r1 r2 r3).bbuf = s.bbuf := rfl
@[simp] theorem State.complete_wait (r0 r1 r2 r3 : Word) : (s.complete r0 r1 r2 r3).wait = s.wait := rfl
@[simp] theorem State.complete_latencies (r0 r1 r2 r3 : Word) : (s.complete r0 r1 r2 r3).latencies = s.latencies := rfl
@[simp] theorem State.complete_draws (r0 r1 r2 r3 : Word) : (s.complete r0 r1 r2 r3).draws = s.draws := rfl
@[simp] theorem State.complete_epoch (r0 r1 r2 r3 : Word) : (s.complete r0 r1 r2 r3).epoch = s.epoch := rfl
@[simp] theorem State.complete_bus (r0 r1 r2 r3 : Word) : (s.complete r0 r1 r2 r3).bus = s.bus := rfl
@[simp] theorem State.complete_response (r0 r1 r2 r3 : Word) : (s.complete r0 r1 r2 r3).response = s.response := rfl

@[simp] theorem State.raise_cken (code : ErrCode) (info : Word) : (s.raise code info).cken = s.cken := rfl
@[simp] theorem State.raise_ie (code : ErrCode) (info : Word) : (s.raise code info).ie = s.ie := rfl
@[simp] theorem State.raise_done (code : ErrCode) (info : Word) : (s.raise code info).done = true := rfl
@[simp] theorem State.raise_err (code : ErrCode) (info : Word) : (s.raise code info).err = true := rfl
@[simp] theorem State.raise_wrap (code : ErrCode) (info : Word) : (s.raise code info).wrap = s.wrap := rfl
@[simp] theorem State.raise_ovr (code : ErrCode) (info : Word) : (s.raise code info).ovr = s.ovr := rfl
@[simp] theorem State.raise_errcode (code : ErrCode) (info : Word) : (s.raise code info).errcode = code := rfl
@[simp] theorem State.raise_errinfo (code : ErrCode) (info : Word) : (s.raise code info).errinfo = info := rfl
@[simp] theorem State.raise_cmd (code : ErrCode) (info : Word) : (s.raise code info).cmd = s.cmd := rfl
@[simp] theorem State.raise_blen (code : ErrCode) (info : Word) : (s.raise code info).blen = s.blen := rfl
@[simp] theorem State.raise_arg0 (code : ErrCode) (info : Word) : (s.raise code info).arg0 = s.arg0 := rfl
@[simp] theorem State.raise_arg1 (code : ErrCode) (info : Word) : (s.raise code info).arg1 = s.arg1 := rfl
@[simp] theorem State.raise_arg2 (code : ErrCode) (info : Word) : (s.raise code info).arg2 = s.arg2 := rfl
@[simp] theorem State.raise_res0 (code : ErrCode) (info : Word) : (s.raise code info).res0 = 0 := rfl
@[simp] theorem State.raise_res1 (code : ErrCode) (info : Word) : (s.raise code info).res1 = 0 := rfl
@[simp] theorem State.raise_res2 (code : ErrCode) (info : Word) : (s.raise code info).res2 = 0 := rfl
@[simp] theorem State.raise_res3 (code : ErrCode) (info : Word) : (s.raise code info).res3 = 0 := rfl
@[simp] theorem State.raise_pending (code : ErrCode) (info : Word) : (s.raise code info).pending = none := rfl
@[simp] theorem State.raise_cbuf (code : ErrCode) (info : Word) : (s.raise code info).cbuf = s.cbuf := rfl
@[simp] theorem State.raise_bbuf (code : ErrCode) (info : Word) : (s.raise code info).bbuf = s.bbuf := rfl
@[simp] theorem State.raise_wait (code : ErrCode) (info : Word) : (s.raise code info).wait = s.wait := rfl
@[simp] theorem State.raise_latencies (code : ErrCode) (info : Word) : (s.raise code info).latencies = s.latencies := rfl
@[simp] theorem State.raise_draws (code : ErrCode) (info : Word) : (s.raise code info).draws = s.draws := rfl
@[simp] theorem State.raise_epoch (code : ErrCode) (info : Word) : (s.raise code info).epoch = s.epoch := rfl
@[simp] theorem State.raise_bus (code : ErrCode) (info : Word) : (s.raise code info).bus = s.bus := rfl
@[simp] theorem State.raise_response (code : ErrCode) (info : Word) : (s.raise code info).response = s.response := rfl

@[simp] theorem State.latchCommand_cken (w : Word) : (s.latchCommand w).cken = s.cken := rfl
@[simp] theorem State.latchCommand_ie (w : Word) : (s.latchCommand w).ie = s.ie := rfl
@[simp] theorem State.latchCommand_done (w : Word) : (s.latchCommand w).done = false := rfl
@[simp] theorem State.latchCommand_err (w : Word) : (s.latchCommand w).err = false := rfl
@[simp] theorem State.latchCommand_wrap (w : Word) : (s.latchCommand w).wrap = s.wrap := rfl
@[simp] theorem State.latchCommand_ovr (w : Word) : (s.latchCommand w).ovr = s.ovr := rfl
@[simp] theorem State.latchCommand_errcode (w : Word) : (s.latchCommand w).errcode = .noError := rfl
@[simp] theorem State.latchCommand_errinfo (w : Word) : (s.latchCommand w).errinfo = s.errinfo := rfl
@[simp] theorem State.latchCommand_cmd (w : Word) : (s.latchCommand w).cmd = w := rfl
@[simp] theorem State.latchCommand_blen (w : Word) : (s.latchCommand w).blen = s.blen := rfl
@[simp] theorem State.latchCommand_arg0 (w : Word) : (s.latchCommand w).arg0 = s.arg0 := rfl
@[simp] theorem State.latchCommand_arg1 (w : Word) : (s.latchCommand w).arg1 = s.arg1 := rfl
@[simp] theorem State.latchCommand_arg2 (w : Word) : (s.latchCommand w).arg2 = s.arg2 := rfl
@[simp] theorem State.latchCommand_res0 (w : Word) : (s.latchCommand w).res0 = s.res0 := rfl
@[simp] theorem State.latchCommand_res1 (w : Word) : (s.latchCommand w).res1 = s.res1 := rfl
@[simp] theorem State.latchCommand_res2 (w : Word) : (s.latchCommand w).res2 = s.res2 := rfl
@[simp] theorem State.latchCommand_res3 (w : Word) : (s.latchCommand w).res3 = s.res3 := rfl
@[simp] theorem State.latchCommand_pending (w : Word) : (s.latchCommand w).pending = some { word := w, arg0 := s.arg0, arg1 := s.arg1, arg2 := s.arg2, cken := s.cken } := rfl
@[simp] theorem State.latchCommand_cbuf (w : Word) : (s.latchCommand w).cbuf = s.cbuf := rfl
@[simp] theorem State.latchCommand_bbuf (w : Word) : (s.latchCommand w).bbuf = s.bbuf := rfl
@[simp] theorem State.latchCommand_wait (w : Word) : (s.latchCommand w).wait = s.wait := rfl
@[simp] theorem State.latchCommand_latencies (w : Word) : (s.latchCommand w).latencies = s.latencies := rfl
@[simp] theorem State.latchCommand_draws (w : Word) : (s.latchCommand w).draws = s.draws := rfl
@[simp] theorem State.latchCommand_epoch (w : Word) : (s.latchCommand w).epoch = s.epoch := rfl
@[simp] theorem State.latchCommand_bus (w : Word) : (s.latchCommand w).bus = s.bus := rfl
@[simp] theorem State.latchCommand_response (w : Word) : (s.latchCommand w).response = s.response := rfl

@[simp] theorem State.respond_cken (r : BusResponse) : (s.respond r).cken = s.cken := rfl
@[simp] theorem State.respond_ie (r : BusResponse) : (s.respond r).ie = s.ie := rfl
@[simp] theorem State.respond_done (r : BusResponse) : (s.respond r).done = s.done := rfl
@[simp] theorem State.respond_err (r : BusResponse) : (s.respond r).err = s.err := rfl
@[simp] theorem State.respond_wrap (r : BusResponse) : (s.respond r).wrap = s.wrap := rfl
@[simp] theorem State.respond_ovr (r : BusResponse) : (s.respond r).ovr = s.ovr := rfl
@[simp] theorem State.respond_errcode (r : BusResponse) : (s.respond r).errcode = s.errcode := rfl
@[simp] theorem State.respond_errinfo (r : BusResponse) : (s.respond r).errinfo = s.errinfo := rfl
@[simp] theorem State.respond_cmd (r : BusResponse) : (s.respond r).cmd = s.cmd := rfl
@[simp] theorem State.respond_blen (r : BusResponse) : (s.respond r).blen = s.blen := rfl
@[simp] theorem State.respond_arg0 (r : BusResponse) : (s.respond r).arg0 = s.arg0 := rfl
@[simp] theorem State.respond_arg1 (r : BusResponse) : (s.respond r).arg1 = s.arg1 := rfl
@[simp] theorem State.respond_arg2 (r : BusResponse) : (s.respond r).arg2 = s.arg2 := rfl
@[simp] theorem State.respond_res0 (r : BusResponse) : (s.respond r).res0 = s.res0 := rfl
@[simp] theorem State.respond_res1 (r : BusResponse) : (s.respond r).res1 = s.res1 := rfl
@[simp] theorem State.respond_res2 (r : BusResponse) : (s.respond r).res2 = s.res2 := rfl
@[simp] theorem State.respond_res3 (r : BusResponse) : (s.respond r).res3 = s.res3 := rfl
@[simp] theorem State.respond_pending (r : BusResponse) : (s.respond r).pending = s.pending := rfl
@[simp] theorem State.respond_cbuf (r : BusResponse) : (s.respond r).cbuf = s.cbuf := rfl
@[simp] theorem State.respond_bbuf (r : BusResponse) : (s.respond r).bbuf = s.bbuf := rfl
@[simp] theorem State.respond_wait (r : BusResponse) : (s.respond r).wait = s.wait := rfl
@[simp] theorem State.respond_latencies (r : BusResponse) : (s.respond r).latencies = s.latencies := rfl
@[simp] theorem State.respond_draws (r : BusResponse) : (s.respond r).draws = s.draws := rfl
@[simp] theorem State.respond_epoch (r : BusResponse) : (s.respond r).epoch = s.epoch := rfl
@[simp] theorem State.respond_bus (r : BusResponse) : (s.respond r).bus = s.bus := rfl
@[simp] theorem State.respond_response (r : BusResponse) : (s.respond r).response = some r := rfl

@[simp] theorem State.writeStatus_cken (w : Word) : (s.writeStatus w).cken = s.cken := rfl
@[simp] theorem State.writeStatus_ie (w : Word) : (s.writeStatus w).ie = s.ie := rfl
@[simp] theorem State.writeStatus_done (w : Word) : (s.writeStatus w).done = (s.done && !w.getLsbD 1) := rfl
@[simp] theorem State.writeStatus_err (w : Word) : (s.writeStatus w).err = s.err := rfl
@[simp] theorem State.writeStatus_wrap (w : Word) : (s.writeStatus w).wrap = (s.wrap && !w.getLsbD 3) := rfl
@[simp] theorem State.writeStatus_ovr (w : Word) : (s.writeStatus w).ovr = (s.ovr && !w.getLsbD 8) := rfl
@[simp] theorem State.writeStatus_errcode (w : Word) : (s.writeStatus w).errcode = s.errcode := rfl
@[simp] theorem State.writeStatus_errinfo (w : Word) : (s.writeStatus w).errinfo = s.errinfo := rfl
@[simp] theorem State.writeStatus_cmd (w : Word) : (s.writeStatus w).cmd = s.cmd := rfl
@[simp] theorem State.writeStatus_blen (w : Word) : (s.writeStatus w).blen = s.blen := rfl
@[simp] theorem State.writeStatus_arg0 (w : Word) : (s.writeStatus w).arg0 = s.arg0 := rfl
@[simp] theorem State.writeStatus_arg1 (w : Word) : (s.writeStatus w).arg1 = s.arg1 := rfl
@[simp] theorem State.writeStatus_arg2 (w : Word) : (s.writeStatus w).arg2 = s.arg2 := rfl
@[simp] theorem State.writeStatus_res0 (w : Word) : (s.writeStatus w).res0 = s.res0 := rfl
@[simp] theorem State.writeStatus_res1 (w : Word) : (s.writeStatus w).res1 = s.res1 := rfl
@[simp] theorem State.writeStatus_res2 (w : Word) : (s.writeStatus w).res2 = s.res2 := rfl
@[simp] theorem State.writeStatus_res3 (w : Word) : (s.writeStatus w).res3 = s.res3 := rfl
@[simp] theorem State.writeStatus_pending (w : Word) : (s.writeStatus w).pending = s.pending := rfl
@[simp] theorem State.writeStatus_cbuf (w : Word) : (s.writeStatus w).cbuf = s.cbuf := rfl
@[simp] theorem State.writeStatus_bbuf (w : Word) : (s.writeStatus w).bbuf = s.bbuf := rfl
@[simp] theorem State.writeStatus_wait (w : Word) : (s.writeStatus w).wait = s.wait := rfl
@[simp] theorem State.writeStatus_latencies (w : Word) : (s.writeStatus w).latencies = s.latencies := rfl
@[simp] theorem State.writeStatus_draws (w : Word) : (s.writeStatus w).draws = s.draws := rfl
@[simp] theorem State.writeStatus_epoch (w : Word) : (s.writeStatus w).epoch = s.epoch := rfl
@[simp] theorem State.writeStatus_bus (w : Word) : (s.writeStatus w).bus = s.bus := rfl
@[simp] theorem State.writeStatus_response (w : Word) : (s.writeStatus w).response = s.response := rfl

@[simp] theorem State.writeCtrl_cken (w : Word) : (s.writeCtrl w).cken = w.getLsbD 0 := rfl
@[simp] theorem State.writeCtrl_ie (w : Word) : (s.writeCtrl w).ie = w.getLsbD 1 := rfl
@[simp] theorem State.writeCtrl_done (w : Word) : (s.writeCtrl w).done = s.done := rfl
@[simp] theorem State.writeCtrl_err (w : Word) : (s.writeCtrl w).err = s.err := rfl
@[simp] theorem State.writeCtrl_wrap (w : Word) : (s.writeCtrl w).wrap = s.wrap := rfl
@[simp] theorem State.writeCtrl_ovr (w : Word) : (s.writeCtrl w).ovr = s.ovr := rfl
@[simp] theorem State.writeCtrl_errcode (w : Word) : (s.writeCtrl w).errcode = s.errcode := rfl
@[simp] theorem State.writeCtrl_errinfo (w : Word) : (s.writeCtrl w).errinfo = s.errinfo := rfl
@[simp] theorem State.writeCtrl_cmd (w : Word) : (s.writeCtrl w).cmd = s.cmd := rfl
@[simp] theorem State.writeCtrl_blen (w : Word) : (s.writeCtrl w).blen = s.blen := rfl
@[simp] theorem State.writeCtrl_arg0 (w : Word) : (s.writeCtrl w).arg0 = s.arg0 := rfl
@[simp] theorem State.writeCtrl_arg1 (w : Word) : (s.writeCtrl w).arg1 = s.arg1 := rfl
@[simp] theorem State.writeCtrl_arg2 (w : Word) : (s.writeCtrl w).arg2 = s.arg2 := rfl
@[simp] theorem State.writeCtrl_res0 (w : Word) : (s.writeCtrl w).res0 = s.res0 := rfl
@[simp] theorem State.writeCtrl_res1 (w : Word) : (s.writeCtrl w).res1 = s.res1 := rfl
@[simp] theorem State.writeCtrl_res2 (w : Word) : (s.writeCtrl w).res2 = s.res2 := rfl
@[simp] theorem State.writeCtrl_res3 (w : Word) : (s.writeCtrl w).res3 = s.res3 := rfl
@[simp] theorem State.writeCtrl_pending (w : Word) : (s.writeCtrl w).pending = s.pending := rfl
@[simp] theorem State.writeCtrl_cbuf (w : Word) : (s.writeCtrl w).cbuf = s.cbuf := rfl
@[simp] theorem State.writeCtrl_bbuf (w : Word) : (s.writeCtrl w).bbuf = s.bbuf := rfl
@[simp] theorem State.writeCtrl_wait (w : Word) : (s.writeCtrl w).wait = s.wait := rfl
@[simp] theorem State.writeCtrl_latencies (w : Word) : (s.writeCtrl w).latencies = s.latencies := rfl
@[simp] theorem State.writeCtrl_draws (w : Word) : (s.writeCtrl w).draws = s.draws := rfl
@[simp] theorem State.writeCtrl_epoch (w : Word) : (s.writeCtrl w).epoch = s.epoch := rfl
@[simp] theorem State.writeCtrl_bus (w : Word) : (s.writeCtrl w).bus = s.bus := rfl
@[simp] theorem State.writeCtrl_response (w : Word) : (s.writeCtrl w).response = s.response := rfl

end Sys2Proof.Machine
end

