-- ==== Sys2Proof/Laws/Bus.lean ====
section
/-! SUPPORT. The register map at its offsets, and everything a turn of the host can do. -/

namespace Sys2Proof.Machine

@[simp] theorem locate_id : locate 0x000#12 = .id := by decide
@[simp] theorem locate_version : locate 0x004#12 = .version := by decide
@[simp] theorem locate_cfg : locate 0x008#12 = .cfg := by decide
@[simp] theorem locate_ctrl : locate 0x00C#12 = .ctrl := by decide
@[simp] theorem locate_status : locate 0x010#12 = .status := by decide
@[simp] theorem locate_cmd : locate 0x014#12 = .cmd := by decide
@[simp] theorem locate_blen : locate 0x018#12 = .blen := by decide
@[simp] theorem locate_errinfo : locate 0x01C#12 = .errinfo := by decide
@[simp] theorem locate_arg0 : locate 0x020#12 = .arg0 := by decide
@[simp] theorem locate_arg1 : locate 0x024#12 = .arg1 := by decide
@[simp] theorem locate_arg2 : locate 0x028#12 = .arg2 := by decide
@[simp] theorem locate_res0 : locate 0x030#12 = .res0 := by decide
@[simp] theorem locate_res1 : locate 0x034#12 = .res1 := by decide
@[simp] theorem locate_res2 : locate 0x038#12 = .res2 := by decide
@[simp] theorem locate_res3 : locate 0x03C#12 = .res3 := by decide

/-- The 64 words of CBUF (R65). -/
theorem locate_cbufWord : ∀ k < 64, locate (BitVec.ofNat 12 (0x400 + 4 * k)) = .cbufWord k := by decide

/-- The 64 words of BBUF (R67). -/
theorem locate_bbufWord : ∀ k < 64, locate (BitVec.ofNat 12 (0x800 + 4 * k)) = .bbufWord k := by decide

/-- A buffer word the map names is inside its buffer. -/
theorem locate_window_lt (off : BitVec 12) (k : Nat) :
    (locate off = .cbufWord k → 4 * k + 4 ≤ Config.cbufBytes) ∧ (locate off = .bbufWord k → 32 * k + 32 ≤ Config.bbufBits) := by
  have inMap : ∀ l, registerMap.lookup off.toNat = some l → l ≠ .cbufWord k ∧ l ≠ .bbufWord k := by
    intro l hl
    have mem : ∀ (m : List (Nat × Location)) a, m.lookup a = some l → ∃ p ∈ m, p.2 = l := by
      intro m a
      induction m with
      | nil => intro h; simp at h
      | cons p rest ih =>
        intro h
        rw [List.lookup_cons] at h
        split at h
        · exact ⟨p, by simp, by simpa using h⟩
        · obtain ⟨q, hq, e⟩ := ih h; exact ⟨q, by simp [hq], e⟩
    obtain ⟨p, hp, rfl⟩ := mem _ _ hl
    simp only [registerMap, List.cons_append, List.nil_append, List.mem_cons, List.not_mem_nil, or_false] at hp
    rcases hp with h | h | h | h | h | h | h | h | h | h | h | h | h | h | h <;> subst h <;> simp
  unfold locate
  cases h : registerMap.lookup off.toNat with
  | some l => exact ⟨fun e => absurd e (inMap l h).1, fun e => absurd e (inMap l h).2⟩
  | none =>
    have base : Config.cbufBase = 1024 ∧ Config.cbufBytes = 256 ∧ Config.bbufBase = 2048 ∧ Config.bbufBits = 2048 :=
      ⟨rfl, rfl, rfl, rfl⟩
    rw [Option.getD_none, windowLocation]
    constructor
    · intro e
      split at e
      · cases e; omega
      · split at e <;> cases e
    · intro e
      split at e
      · cases e
      · split at e
        · cases e; omega
        · cases e

/-- The engine is due exactly when a command is pending and its latency is over (R7, R33). -/
theorem State.engineDue_iff (s : State) : s.engineDue = true ↔ s.pending.isSome = true ∧ s.wait = 0 := by
  simp [State.engineDue, State.busy]

theorem State.hostTurn_nil (s : State) (h : s.bus = []) : s.hostTurn = { s with wait := s.wait - 1 } := by
  simp [State.hostTurn, h]

theorem State.hostTurn_cons (s : State) (e : BusEvent) (rest : List BusEvent) (h : s.bus = e :: rest) :
    s.hostTurn = { s with wait := s.wait - 1, bus := rest }.deliver e := by
  simp [State.hostTurn, h]

/-- A host read changes the draw counter and the answer alone (R71). -/
theorem State.hostRead_cases (s : State) (off : BitVec 12) (lanes : BitVec 4) :
    ∃ d r, s.hostRead off lanes = { s with draws := d, response := some r } := by
  unfold State.hostRead
  split
  · exact ⟨s.draws, _, rfl⟩
  · split
    · exact ⟨s.draws + 1, _, rfl⟩
    · exact ⟨s.draws, _, rfl⟩

/-- Drawing a latency changes the latency fields alone (R7). -/
theorem State.drawLatency_cases (s : State) :
    ∃ w d l, s.drawLatency = { s with wait := w, draws := d, latencies := l } := by
  unfold State.drawLatency
  split
  · next h => exact ⟨_, _, s.latencies, rfl⟩
  · exact ⟨_, s.draws, _, rfl⟩

/-- What a host write can do (R61, R62). -/
theorem State.hostWrite_cases (s : State) (off : BitVec 12) (lanes : BitVec 4) (w : Word) :
    (supported off lanes = false ∧ s.hostWrite off lanes w = s.respond { status := .buserr, data := none }) ∨
    (supported off lanes = true ∧ s.busy = true ∧
      s.hostWrite off lanes w = (s.writeBusy (locate off) w).respond { status := .okay, data := none }) ∨
    (supported off lanes = true ∧ s.busy = false ∧
      s.hostWrite off lanes w = (s.writeIdle (locate off) w).respond { status := .okay, data := none }) := by
  unfold State.hostWrite
  cases h : supported off lanes
  · exact .inl ⟨rfl, rfl⟩
  · cases b : s.busy
    · exact .inr (.inr ⟨rfl, rfl, rfl⟩)
    · exact .inr (.inl ⟨rfl, rfl, rfl⟩)

/-- While a command is pending a write changes W1C flags or sets OVR, nothing else (R62). -/
theorem State.writeBusy_cases (s : State) (l : Location) (w : Word) :
    (l = .status ∧ s.writeBusy l w = s.writeStatus w) ∨ (l ≠ .status ∧ s.writeBusy l w = { s with ovr := true }) := by
  cases l <;> simp [State.writeBusy]

/-- The window of an address: the platform's base cancels (R72). -/
theorem busAddress_offset (off : BitVec 12) : Config.busAddress off - Config.ais6Base = off.toNat := by
  simp [Config.busAddress]

end Sys2Proof.Machine
end

