-- ==== Sys2Proof/Laws/Codec.lean ====
section
/-! SUPPORT. Bit strings and their values, and the inverse laws of the character tables. -/

namespace Sys2Proof.Machine

theorem foldl_bits (bs : List Bool) (v : Nat) :
    bs.foldl (fun v b => 2 * v + b.toNat) v = v * 2 ^ bs.length + natOfBits bs := by
  induction bs generalizing v with
  | nil => simp [natOfBits]
  | cons b rest ih =>
    simp only [List.foldl_cons, List.length_cons, natOfBits]
    rw [ih, ih (2 * 0 + b.toNat)]
    ring

@[simp] theorem natOfBits_nil : natOfBits [] = 0 := rfl

/-- The first bit is the most significant (R11). -/
theorem natOfBits_cons (b : Bool) (bs : List Bool) : natOfBits (b :: bs) = b.toNat * 2 ^ bs.length + natOfBits bs := by
  rw [natOfBits, List.foldl_cons, foldl_bits]
  simp

theorem natOfBits_lt (bs : List Bool) : natOfBits bs < 2 ^ bs.length := by
  induction bs with
  | nil => simp
  | cons b rest ih =>
    rw [natOfBits_cons, List.length_cons, pow_succ]
    have := b.toNat_le
    nlinarith [Nat.mul_le_mul_right (2 ^ rest.length) this]

theorem natOfBits_append (bs : List Bool) (b : Bool) : natOfBits (bs ++ [b]) = 2 * natOfBits bs + b.toNat := by
  simp [natOfBits, List.foldl_append]

@[simp] theorem length_bitsOfNat (L w : Nat) : (bitsOfNat L w).length = L := by simp [bitsOfNat]

theorem getElem?_bitsOfNat (L w k : Nat) (h : k < L) : (bitsOfNat L w)[k]? = some (w.testBit (L - 1 - k)) := by
  simp [bitsOfNat, List.getElem?_map, List.getElem?_range h]

/-- The string of one more bit begins with that bit. -/
theorem bitsOfNat_succ (L w : Nat) : bitsOfNat (L + 1) w = w.testBit L :: bitsOfNat L w := by
  simp only [bitsOfNat, List.range_succ_eq_map, List.map_cons, List.map_map]
  congr 1
  refine List.map_congr_left fun k _ => ?_
  simp only [Function.comp]
  congr 1
  omega

/-- Reading back the L-bit string of `w` gives its low L bits (R10, R11). -/
theorem natOfBits_bitsOfNat (L w : Nat) : natOfBits (bitsOfNat L w) = w % 2 ^ L := by
  induction L with
  | zero => simp [bitsOfNat, Nat.mod_one]
  | succ L ih =>
    rw [bitsOfNat_succ, natOfBits_cons, ih, length_bitsOfNat, Nat.testBit_eq_decide_div_mod_eq, pow_succ, Nat.mod_mul]
    rcases Nat.mod_two_eq_zero_or_one (w / 2 ^ L) with h | h <;> simp [h, Nat.add_comm]

theorem inv6_lt (c : Byte) : inv6 c < 64 := by
  unfold inv6; split
  · omega
  · split <;> omega

/-- A mapped character survives the way to its code and back (R13, R14). -/
theorem chr6_inv6 (c : Byte) (h : isMapped c = true) : chr6 (inv6 c) = c := by
  revert h; revert c; decide

theorem inv6_chr6 : ∀ v < 64, inv6 (chr6 v) = v := by decide

/-- The de-armored value is a 6-bit value (R16). -/
theorem unarmor_lt (c : Byte) (h : isArmor c = true) : unarmor c < 64 := by
  simp only [isArmor, Bool.and_eq_true, decide_eq_true_eq] at h
  unfold unarmor; split <;> omega

/-- `unarmor` undoes `armor` (R151). -/
theorem unarmor_armor : ∀ v < 64, unarmor (armor v) = v := by decide

theorem isArmor_armor : ∀ v < 64, isArmor (armor v) = true := by decide

/-- `armor` undoes `unarmor` on the characters `armor` produces (R151). -/
theorem armor_unarmor (c : Byte) (h : (0x30 ≤ c.toNat ∧ c.toNat ≤ 0x57) ∨ (0x60 ≤ c.toNat ∧ c.toNat ≤ 0x77)) :
    armor (unarmor c) = c := by
  revert h; revert c; decide

theorem length_flatMap_bits {α : Type} (cs : List α) (f : α → Nat) :
    (cs.flatMap fun c => bitsOfNat 6 (f c)).length = 6 * cs.length := by
  induction cs with
  | nil => rfl
  | cons c rest ih => simp only [List.flatMap_cons, List.length_append, length_bitsOfNat, List.length_cons, ih]; omega

/-- Bit `6k + j` of a string of 6-bit groups is bit `5 - j` of group `k` (R68, R140). -/
theorem getElem?_flatMap_bits {α : Type} (cs : List α) (f : α → Nat) (k j : Nat) (hk : k < cs.length) (hj : j < 6) :
    (cs.flatMap fun c => bitsOfNat 6 (f c))[6 * k + j]? = some ((f cs[k]).testBit (5 - j)) := by
  induction cs generalizing k with
  | nil => simp at hk
  | cons c rest ih =>
    rw [List.flatMap_cons]
    cases k with
    | zero =>
      rw [List.getElem?_append_left (by simpa using hj), getElem?_bitsOfNat _ _ _ (by omega)]
      simp
    | succ k =>
      rw [List.getElem?_append_right (by simp; omega), length_bitsOfNat, show 6 * (k + 1) + j - 6 = 6 * k + j by omega,
        ih k (by simpa using hk)]
      simp

end Sys2Proof.Machine
end

