-- ==== Sys2Proof/Laws/Ops.lean ====
section
/-! SUPPORT. What the shared operations do to the bytes and bits a command reads, and the operands of an issued command. -/

namespace Sys2Proof.Machine

variable (s : State)

/-- Reads of CBUF depend on the buffer and the reset count alone. -/
theorem State.byte_congr {s t : State} (hc : t.cbuf = s.cbuf) (he : t.epoch = s.epoch) (a : Nat) : t.byte a = s.byte a := by
  simp [State.byte, hc, he]

/-- Reads of BBUF depend on the buffer and the reset count alone. -/
theorem State.bit_congr {s t : State} (hb : t.bbuf = s.bbuf) (he : t.epoch = s.epoch) (i : Nat) : t.bit i = s.bit i := by
  simp [State.bit, hb, he]

@[simp] theorem State.byte_complete (r0 r1 r2 r3 : Word) (a : Nat) : (s.complete r0 r1 r2 r3).byte a = s.byte a := rfl
@[simp] theorem State.bit_complete (r0 r1 r2 r3 : Word) (i : Nat) : (s.complete r0 r1 r2 r3).bit i = s.bit i := rfl
@[simp] theorem State.byte_raise (c : ErrCode) (w : Word) (a : Nat) : (s.raise c w).byte a = s.byte a := rfl
@[simp] theorem State.bit_raise (c : ErrCode) (w : Word) (i : Nat) : (s.raise c w).bit i = s.bit i := rfl
@[simp] theorem State.byte_setBlen (n a : Nat) : (s.setBlen n).byte a = s.byte a := rfl
@[simp] theorem State.bit_setBlen (n i : Nat) : (s.setBlen n).bit i = s.bit i := rfl
@[simp] theorem State.byte_setWrapIf (b : Bool) (a : Nat) : (s.setWrapIf b).byte a = s.byte a := rfl
@[simp] theorem State.bit_setWrapIf (b : Bool) (i : Nat) : (s.setWrapIf b).bit i = s.bit i := rfl
@[simp] theorem State.bit_writeBytes (a : Nat) (bs : List Byte) (i : Nat) : (s.writeBytes a bs).bit i = s.bit i := rfl
@[simp] theorem State.byte_writeBits (i : Nat) (bs : List Bool) (a : Nat) : (s.writeBits i bs).byte a = s.byte a := rfl
@[simp] theorem State.byte_append (x : List Bool) (a : Nat) : (s.append x).byte a = s.byte a := rfl
@[simp] theorem State.bit_append (x : List Bool) (i : Nat) : (s.append x).bit i = (s.writeBits s.blen x).bit i := rfl
@[simp] theorem State.byte_issue (w a0 a1 a2 : Word) (a : Nat) : (s.issue w a0 a1 a2).byte a = s.byte a := rfl
@[simp] theorem State.bit_issue (w a0 a1 a2 : Word) (i : Nat) : (s.issue w a0 a1 a2).bit i = s.bit i := rfl
@[simp] theorem State.blen_issue (w a0 a1 a2 : Word) : (s.issue w a0 a1 a2).blen = s.blen := rfl
@[simp] theorem State.wrap_issue (w a0 a1 a2 : Word) : (s.issue w a0 a1 a2).wrap = s.wrap := rfl

/-- A byte of a written run reads as written (R17). -/
theorem State.byte_writeBytes (a : Nat) (bs : List Byte) (k : Nat) (h : k < bs.length) :
    (s.writeBytes a bs).byte (a + k) = bs[k] := by
  simp only [State.byte, State.writeBytes_cbuf, State.writeBytes_epoch, Memory.cell_storeAll]
  rw [if_pos (by omega)]
  simp [List.getElem?_eq_getElem h]

/-- A byte outside a written run reads as before. -/
theorem State.byte_writeBytes_outside (a : Nat) (bs : List Byte) (b : Nat) (h : b < a ∨ a + bs.length ≤ b) :
    (s.writeBytes a bs).byte b = s.byte b := by
  simp only [State.byte, State.writeBytes_cbuf, State.writeBytes_epoch, Memory.cell_storeAll_outside _ _ _ _ h]

/-- A bit of a written run reads as written (R17). -/
theorem State.bit_writeBits (i : Nat) (bs : List Bool) (k : Nat) (h : k < bs.length) :
    (s.writeBits i bs).bit (i + k) = bs[k] := by
  simp only [State.bit, State.writeBits_bbuf, State.writeBits_epoch, Memory.cell_storeAll]
  rw [if_pos (by omega)]
  simp [List.getElem?_eq_getElem h]

/-- A bit outside a written run reads as before. -/
theorem State.bit_writeBits_outside (i : Nat) (bs : List Bool) (j : Nat) (h : j < i ∨ i + bs.length ≤ j) :
    (s.writeBits i bs).bit j = s.bit j := by
  simp only [State.bit, State.writeBits_bbuf, State.writeBits_epoch, Memory.cell_storeAll_outside _ _ _ _ h]

@[simp] theorem State.length_readBytes (a n : Nat) : (s.readBytes a n).length = n := by simp [State.readBytes]
@[simp] theorem State.length_readBits (i n : Nat) : (s.readBits i n).length = n := by simp [State.readBits]

theorem State.getElem_readBytes (a n k : Nat) (h : k < n) : (s.readBytes a n)[k]'(by simpa using h) = s.byte (a + k) := by
  simp [State.readBytes]

/-- The model's field read is the sum of R11. -/
theorem State.ufield_eq_sum (i L : Nat) : s.ufield i L = fieldSum s.bit i L := by
  unfold State.ufield fieldSum State.readBits
  induction L with
  | zero => rfl
  | succ L ih =>
    rw [List.range_succ, List.map_append, List.map_cons, List.map_nil, natOfBits_append, ih, Finset.sum_range_succ,
      Finset.mul_sum]
    congr 1
    · refine Finset.sum_congr rfl fun k hk => ?_
      have := Finset.mem_range.mp hk
      rw [show L + 1 - 1 - k = (L - 1 - k) + 1 by omega, pow_succ]
      ring
    · simp

theorem State.ufield_lt (i L : Nat) : s.ufield i L < 2 ^ L := by
  simpa [State.ufield] using natOfBits_lt (s.readBits i L)

/-- The model's signed field read is that of R12. -/
theorem State.sfield_eq (i L : Nat) : s.sfield i L = fieldSigned s.bit i L := by
  unfold State.sfield fieldSigned intOfBits
  rw [← State.ufield_eq_sum, State.length_readBits]
  have h : (s.readBits i L).head? = some true ↔ 1 ≤ L ∧ s.bit i = true := by
    cases L with
    | zero => simp [State.readBits]
    | succ L => simp [State.readBits, List.range_succ_eq_map]
  by_cases c : 1 ≤ L ∧ s.bit i = true
  · rw [if_pos (h.mpr c), if_pos c]; rfl
  · rw [if_neg (fun x => c (h.mp x)), if_neg c]; rfl

/-- With a command pending the operands are the latched ones (R32, R92). -/
theorem State.latched_pending {p : Pending} (h : s.pending = some p) : s.latched = p := by simp [State.latched, h]

@[simp] theorem State.op0_issue (w a0 a1 a2 : Word) : (s.issue w a0 a1 a2).op0 = a0.toNat := rfl
@[simp] theorem State.op1_issue (w a0 a1 a2 : Word) : (s.issue w a0 a1 a2).op1 = a1.toNat := rfl
@[simp] theorem State.op2_issue (w a0 a1 a2 : Word) : (s.issue w a0 a1 a2).op2 = a2.toNat := rfl
@[simp] theorem State.op0Signed_issue (w a0 a1 a2 : Word) : (s.issue w a0 a1 a2).op0Signed = a0.toInt := rfl

theorem pastCbuf_eq (a n : Nat) : pastCbuf a n = decide (256 < a + n) := rfl
theorem overlong_eq (L : Nat) : overlong L = decide (32 < L) := rfl
theorem pastBbuf_eq (i n : Nat) : pastBbuf i n = decide (2048 < i + n) := rfl
theorem State.pastBlen_eq (i L : Nat) : s.pastBlen i L = decide (s.blen < i + L) := rfl

/-- What completing leaves (R17), whatever was stored before. -/
theorem State.complete_spec {s u : State} (h : EngineKeeps s u) (r0 r1 r2 r3 : Word) :
    Completes s (u.complete r0 r1 r2 r3) r0 r1 r2 r3 := by
  constructor <;> first | rfl | exact ⟨h.1, h.2, h.3, h.4, h.5, h.6, h.7, h.8, h.9, h.10, h.11, h.12, h.13⟩

theorem EngineKeeps.refl : EngineKeeps s s := by constructor <;> rfl

/-- What an error completion leaves (R202). -/
theorem State.raise_spec (code : ErrCode) (info : Word) : Fails s (s.raise code info) code info := by
  constructor <;> first | rfl | (constructor <;> first | rfl | (intro _ _; rfl))

theorem State.complete_storesNothing (r0 r1 r2 r3 : Word) : StoresNothing s (s.complete r0 r1 r2 r3) := by
  constructor <;> first | rfl | (intro _ _; rfl)

end Sys2Proof.Machine
end

