-- ==== Sys2Proof/Laws/Exec.lean ====
section
/-! SUPPORT. Everything an engine step can do, said once: each command either raises an error in the state it found, or
completes after changing only the fields its rule names. -/

namespace Sys2Proof.Machine

/-- The state after a command's stores and before its completion. -/
def State.stored (s : State) (cb : Memory Byte) (bb : Memory Bool) (n : Nat) (wr : Bool) : State :=
  { s with cbuf := cb, bbuf := bb, blen := n, wrap := wr }

/-- What a command of the state `s` may answer with: an error, or a completion after the stores `P` allows. -/
def Ends (s : State) (P : Memory Byte → Memory Bool → Nat → Bool → Prop) (r : Result) : Prop :=
  (∃ code info, code ≠ .noError ∧ r = .next (s.raise code info)) ∨
  ∃ cb bb n wr r0 r1 r2 r3, P cb bb n wr ∧ r = .next ((s.stored cb bb n wr).complete r0 r1 r2 r3)

theorem Ends.error {s : State} {P : Memory Byte → Memory Bool → Nat → Bool → Prop} {code : ErrCode} (info : Word)
    (h : code ≠ .noError) : Ends s P (.next (s.raise code info)) := .inl ⟨code, info, h, rfl⟩

theorem Ends.success {s : State} {P : Memory Byte → Memory Bool → Nat → Bool → Prop} (cb : Memory Byte)
    (bb : Memory Bool) (n : Nat) (wr : Bool) (r0 r1 r2 r3 : Word) (h : P cb bb n wr) :
    Ends s P (.next ((s.stored cb bb n wr).complete r0 r1 r2 r3)) := .inr ⟨cb, bb, n, wr, r0, r1, r2, r3, h, rfl⟩

/-- The stores of a command that stores nothing. -/
def State.NoStore (s : State) (cb : Memory Byte) (bb : Memory Bool) (n : Nat) (wr : Bool) : Prop :=
  cb = s.cbuf ∧ bb = s.bbuf ∧ n = s.blen ∧ wr = s.wrap

/-- The stores of a command that writes a run of CBUF bytes inside the buffer. -/
def State.CbufStore (s : State) (cb : Memory Byte) (bb : Memory Bool) (n : Nat) (wr : Bool) : Prop :=
  (∃ a bs, a + bs.length ≤ Config.cbufBytes ∧ cb = s.cbuf.storeAll a bs) ∧ bb = s.bbuf ∧ n = s.blen ∧ wr = s.wrap

/-- The stores of a command that writes a run of BBUF bits inside the buffer and sets BLEN. -/
def State.BbufStore (s : State) (cb : Memory Byte) (bb : Memory Bool) (n : Nat) (wr : Bool) : Prop :=
  cb = s.cbuf ∧ (∃ i bs, i + bs.length ≤ Config.bbufBits ∧ bb = s.bbuf.storeAll i bs ∧ n ≤ i + bs.length)
    ∧ (s.wrap = true → wr = true)

theorem execRdu_ends (s : State) : Ends s s.NoStore (execRdu s) := by
  unfold execRdu
  split
  · exact .error _ (by decide)
  · split
    · exact .error _ (by decide)
    · exact .success s.cbuf s.bbuf s.blen s.wrap _ _ _ _ ⟨rfl, rfl, rfl, rfl⟩

theorem execRds_ends (s : State) : Ends s s.NoStore (execRds s) := by
  unfold execRds
  split
  · exact .error _ (by decide)
  · split
    · exact .error _ (by decide)
    · exact .success s.cbuf s.bbuf s.blen s.wrap _ _ _ _ ⟨rfl, rfl, rfl, rfl⟩

theorem length_rdropWhile_le {α : Type} (p : α → Bool) (l : List α) : (l.rdropWhile p).length ≤ l.length := by
  simpa [List.rdropWhile] using (List.dropWhile_sublist p (l := l.reverse)).length_le

/-- Trimming never lengthens a text, so it fits where the raw text fits (R113, R114). -/
theorem length_trim6_le (t : List Byte) : (trim6 t).length ≤ t.length := by
  unfold trim6
  exact (length_rdropWhile_le _ _).trans
    (((List.dropWhile_sublist _).length_le).trans (length_rdropWhile_le _ _))

theorem State.textGroups_le (s : State) (i n : Nat) : s.textGroups i n ≤ n := by
  unfold State.textGroups; split <;> omega

theorem execRdtxt_ends (s : State) : Ends s s.CbufStore (execRdtxt s) := by
  unfold execRdtxt
  split
  · exact .error _ (by decide)
  · next h =>
    refine .success _ s.bbuf s.blen s.wrap _ _ _ _ ⟨⟨_, _, ?_, rfl⟩, rfl, rfl, rfl⟩
    have fits := length_trim6_le (s.rawText s.op0 (s.textGroups s.op0 s.op1))
    have groups := s.textGroups_le s.op0 s.op1
    simp only [pastCbuf, decide_eq_true_eq] at h
    simp only [State.rawText, List.length_map, List.length_range] at fits ⊢
    omega

theorem execWru_ends (s : State) : Ends s s.BbufStore (execWru s) := by
  unfold execWru
  split
  · exact .error _ (by decide)
  · split
    · exact .error _ (by decide)
    · next h =>
      simp only [pastBbuf, decide_eq_true_eq] at h
      refine .success s.cbuf _ _ _ _ _ _ _ ⟨rfl, ⟨s.blen, _, ?_, rfl, Nat.le_refl _⟩, fun w => ?_⟩
      · simpa using h
      · simp [w]

theorem execWrs_ends (s : State) : Ends s s.BbufStore (execWrs s) := by
  unfold execWrs
  split
  · exact .error _ (by decide)
  · split
    · exact .error _ (by decide)
    · next h =>
      simp only [pastBbuf, decide_eq_true_eq] at h
      refine .success s.cbuf _ _ _ _ _ _ _ ⟨rfl, ⟨s.blen, _, ?_, rfl, Nat.le_refl _⟩, fun w => ?_⟩
      · simpa using h
      · simp [w]

/-- WRTXT writes bits and BLEN as a packer does, and never WRAP (R123). -/
theorem execWrtxt_ends (s : State) :
    Ends s (fun cb bb n wr => s.BbufStore cb bb n wr ∧ wr = s.wrap) (execWrtxt s) := by
  unfold execWrtxt
  split
  · exact .error _ (by decide)
  · split
    · exact .error _ (by decide)
    · next h =>
      simp only [pastBbuf, decide_eq_true_eq] at h
      refine .success s.cbuf _ _ s.wrap _ _ _ _ ⟨⟨rfl, ⟨s.blen, _, ?_, rfl, Nat.le_refl _⟩, id⟩, rfl⟩
      rw [length_flatMap_bits, State.paddedText, List.length_map, List.length_range]
      omega

/-- ARMDEC writes bits and BLEN, and never WRAP (R140, R141). -/
theorem execArmdec_ends (s : State) :
    Ends s (fun cb bb n wr => s.BbufStore cb bb n wr ∧ wr = s.wrap) (execArmdec s) := by
  unfold execArmdec
  split
  · exact .error _ (by decide)
  · split
    · exact .error _ (by decide)
    · split
      · exact .error _ (by decide)
      · next _ h _ =>
        simp only [pastBbuf, decide_eq_true_eq] at h
        dsimp only
        split
        · exact .error _ (by decide)
        · refine .success s.cbuf _ _ s.wrap _ _ _ _ ⟨⟨rfl, ⟨0, _, ?_, rfl, ?_⟩, id⟩, rfl⟩
          · rw [length_flatMap_bits, State.length_readBytes]; omega
          · rw [length_flatMap_bits, State.length_readBytes]; omega

theorem execArmenc_ends (s : State) : Ends s s.CbufStore (execArmenc s) := by
  unfold execArmenc
  dsimp only
  split
  · exact .error _ (by decide)
  · next h =>
    split
    · exact .error _ (by decide)
    · simp only [pastCbuf, decide_eq_true_eq] at h
      refine .success _ s.bbuf s.blen s.wrap _ _ _ _ ⟨⟨_, _, ?_, rfl⟩, rfl, rfl, rfl⟩
      rw [State.armorText, List.length_map, List.length_range]
      omega

theorem execParse_ends (s : State) : Ends s s.NoStore (execParse s) := by
  unfold execParse
  split
  · exact .error _ (by decide)
  · dsimp only
    split
    · exact .success s.cbuf s.bbuf s.blen s.wrap _ _ _ _ ⟨rfl, rfl, rfl, rfl⟩
    · exact .success s.cbuf s.bbuf s.blen s.wrap _ _ _ _ ⟨rfl, rfl, rfl, rfl⟩

theorem execCksum_ends (s : State) : Ends s s.NoStore (execCksum s) := by
  unfold execCksum
  split
  · exact .error _ (by decide)
  · exact .success s.cbuf s.bbuf s.blen s.wrap _ _ _ _ ⟨rfl, rfl, rfl, rfl⟩

theorem execIllegal_ends (w : Word) (s : State) : Ends s s.NoStore (execIllegal w s) := .error _ (by decide)

/-- The stores each command may make. -/
def StoresOf (i : Instr) (s : State) : Memory Byte → Memory Bool → Nat → Bool → Prop :=
  match i with
  | .rdu | .rds | .parse | .cksum | .illegal _ => s.NoStore
  | .rdtxt | .armenc => s.CbufStore
  | .wru | .wrs => s.BbufStore
  | .wrtxt | .armdec => fun cb bb n wr => s.BbufStore cb bb n wr ∧ wr = s.wrap

/-- Everything an engine step can do (R17, R33, R202). -/
theorem exec_ends (i : Instr) (s : State) : Ends s (StoresOf i s) (exec i s) := by
  cases i with
  | rdu => exact execRdu_ends s
  | rds => exact execRds_ends s
  | rdtxt => exact execRdtxt_ends s
  | wru => exact execWru_ends s
  | wrs => exact execWrs_ends s
  | wrtxt => exact execWrtxt_ends s
  | armdec => exact execArmdec_ends s
  | armenc => exact execArmenc_ends s
  | parse => exact execParse_ends s
  | cksum => exact execCksum_ends s
  | illegal w => exact execIllegal_ends w s

end Sys2Proof.Machine
end

