-- ==== Sys2Proof/Laws/PerInstr.lean ====
section
/-! SUPPORT. Facts stated of every instruction, one lemma per constructor. Family AssignedWord: a well-formed instruction
other than ILLEGAL has one of the ten assigned words, with bits 31:8 zero (R90, R93); ILLEGAL has none of them (R95). -/

namespace Sys2Proof.Laws.AssignedWord

/-- The word of the instruction is assigned, and is its opcode alone, exactly when it is not an illegal command. -/
def Statement (i : Instr) : Prop :=
  i.wellFormed = true →
    (encode i ∈ assignedWords ↔ (opcode i).isSome = true) ∧ ∀ b, opcode i = some b → encode i = b.setWidth 32

theorem rdu : Statement .rdu := by unfold Statement; decide
theorem rds : Statement .rds := by unfold Statement; decide
theorem rdtxt : Statement .rdtxt := by unfold Statement; decide
theorem wru : Statement .wru := by unfold Statement; decide
theorem wrs : Statement .wrs := by unfold Statement; decide
theorem wrtxt : Statement .wrtxt := by unfold Statement; decide
theorem armdec : Statement .armdec := by unfold Statement; decide
theorem armenc : Statement .armenc := by unfold Statement; decide
theorem parse : Statement .parse := by unfold Statement; decide
theorem cksum : Statement .cksum := by unfold Statement; decide

theorem illegal (w : Word) : Statement (.illegal w) := by
  intro h
  simp only [Instr.wellFormed, Bool.not_eq_true'] at h
  constructor
  · simp only [encode, opcode, Option.isSome_none, Bool.false_eq_true, iff_false]
    intro m
    rw [List.contains_iff_mem.mpr m] at h
    cases h
  · intro b e; cases e

end Sys2Proof.Laws.AssignedWord
end

