-- ==== Sys2Proof/Tests/Slice0.lean ====
section
/-! SUPPORT. Small tests, their expected values from spec/95_test_vectors.md (vector names in the comments) or from the
encoding tables of spec/30_encoding.md, and for every statement with hypotheses a witness that meets them. -/

namespace Sys2Proof.Tests

open Sys2Proof Sys2Proof.Machine

/-! ## Helpers -/

/-- Bits from 0s and 1s. -/
def bits (l : List Nat) : List Bool := l.map (· == 1)

/-- Bytes from characters. -/
def chars (l : List Char) : List Byte := l.map fun c => BitVec.ofNat 8 c.toNat

/-- The bit string of 6-bit codes. -/
def codes (l : List Nat) : List Bool := l.flatMap (bitsOfNat 6)

/-- A state with bit string `bs`, bytes `cs` at CBUF address `a`, and the command `w` pending and due. -/
def due (w a0 a1 a2 : Word) (blen : Nat) (bs : List Bool) (a : Nat) (cs : List Byte) : State :=
  { (((State.reset.writeBits 0 bs).writeBytes a cs).setBlen blen) with arg0 := a0, arg1 := a1, arg2 := a2 }.latchCommand w

/-- The state one step later. -/
def after (s : State) : State :=
  match step s with
  | .next t => t
  | .fault _ => s
  | .refused _ => s

/-- The four results, STATUS and ERRINFO one step later. -/
def report (s : State) : List Word :=
  let t := after s
  [t.res0, t.res1, t.res2, t.res3, t.statusWord, t.errinfo]

/-- An idle state in which the host is about to do `e`. -/
def hostDoes (s : State) (e : BusEvent) : State := { s with bus := [e] }

/-- The answer to the host one step later. -/
def answer (s : State) : Option BusResponse := (after s).response

/-! ## WellFormed refuses an ill-formed term -/

-- R95: the ten assigned words are not illegal commands.
theorem test_illegal_of_RDU_word_is_ill_formed : (Instr.illegal 0x00000010).wellFormed = false := by decide
theorem test_illegal_of_CKSUM_word_is_ill_formed : (Instr.illegal 0x00000031).wellFormed = false := by decide
theorem test_illegal_of_unassigned_word_is_well_formed : (Instr.illegal 0x00000110).wellFormed = true := by decide

/-! ## Decoding: words written out bit by bit from opcode_table.json -/

theorem test_decode_RDU : decode 0b00000000000000000000000000010000 = .rdu := by decide
theorem test_decode_RDS : decode 0b00000000000000000000000000010001 = .rds := by decide
theorem test_decode_RDTXT : decode 0b00000000000000000000000000010010 = .rdtxt := by decide
theorem test_decode_WRU : decode 0b00000000000000000000000000011000 = .wru := by decide
theorem test_decode_WRS : decode 0b00000000000000000000000000011001 = .wrs := by decide
theorem test_decode_WRTXT : decode 0b00000000000000000000000000011010 = .wrtxt := by decide
theorem test_decode_ARMDEC : decode 0b00000000000000000000000000100000 = .armdec := by decide
theorem test_decode_ARMENC : decode 0b00000000000000000000000000100001 = .armenc := by decide
theorem test_decode_PARSE : decode 0b00000000000000000000000000110000 = .parse := by decide
theorem test_decode_CKSUM : decode 0b00000000000000000000000000110001 = .cksum := by decide
-- Vectors I2 - I4.
theorem test_decode_ILLEGAL : decode 0x00000013 = .illegal 0x00000013 ∧ decode 0x00000110 = .illegal 0x00000110
    ∧ decode 0xFFFFFFFF = .illegal 0xFFFFFFFF := by decide
theorem test_decode_longer_than_a_word : decodeTableWord 40 0x10 = none := by decide
theorem test_encode_ARMENC : encode .armenc = 0x00000021 := by decide

/-! ## The commands -/

-- U1, U6.
theorem test_RDU_field : report (due 0x10 0 8 0 8 (bits [1, 0, 0, 0, 0, 0, 0, 1]) 0 []) = [0x81, 0, 0, 0, 0x2, 0] := by decide
theorem test_RDU_past_end : report (due 0x10 1 8 0 8 (bits [1, 0, 0, 0, 0, 0, 0, 1]) 0 []) = [0, 0, 0, 0, 0x46, 0] := by
  decide

-- U9, U19.
theorem test_RDS_negative : report (due 0x11 0 8 0 8 (bits [1, 0, 0, 0, 0, 0, 0, 1]) 0 []) = [0xFFFFFF81, 0, 0, 0, 0x2, 0] := by
  decide
theorem test_RDS_most_negative : report (due 0x11 0 5 0 5 (bits [1, 0, 0, 0, 0]) 0 []) = [0xFFFFFFF0, 0, 0, 0, 0x2, 0] := by
  decide

-- X2: the `@` run before a space is kept; X4: decoding stops early.
theorem test_RDTXT_trims : report (due 0x12 0 7 0x80 42 (codes [32, 32, 1, 2, 0, 0, 32]) 0 []) = [4, 7, 0, 0, 0x2, 0]
    ∧ (after (due 0x12 0 7 0x80 42 (codes [32, 32, 1, 2, 0, 0, 32]) 0 [])).readBytes 0x80 4 = chars ['A', 'B', '@', '@'] := by
  decide
theorem test_RDTXT_stops_early : report (due 0x12 0 5 0x80 27 (codes [8, 5, 12, 12, 15]) 0 []) = [4, 4, 0, 0, 0x2, 0] := by
  decide

-- W2, W20 and W19.
theorem test_WRU_wraps : report (due 0x18 70 6 0 6 (bits [0, 0, 0, 1, 0, 1]) 0 []) = [12, 6, 0, 0, 0xA, 0]
    ∧ (after (due 0x18 70 6 0 6 (bits [0, 0, 0, 1, 0, 1]) 0 [])).readBits 6 6 = bits [0, 0, 0, 1, 1, 0] := by decide
theorem test_WRU_fills_BBUF : report (due 0x18 1 4 0 2044 [] 0 []) = [2048, 1, 0, 0, 0x2, 0]
    ∧ report (due 0x18 1 5 0 2044 [] 0 []) = [0, 0, 0, 0, 0x56, 0] := by decide

-- W10, W15.
theorem test_WRS_most_negative_fits : report (due 0x19 0xFFFFFF80 8 0 0 [] 0 []) = [8, 0x80, 0, 0, 0x2, 0] := by decide
theorem test_WRS_one_bit_wraps : report (due 0x19 1 1 0 0 [] 0 []) = [1, 1, 0, 0, 0xA, 0] := by decide

-- T2, T3.
theorem test_WRTXT_counts_unmapped : report (due 0x1A 0x40 4 4 0 [] 0x40 [0x41, 0x60, 0x7B, 0x80]) = [24, 3, 0, 0, 0x2, 0] := by
  decide
theorem test_WRTXT_pads : report (due 0x1A 0x40 2 5 0 [] 0x40 (chars ['A', 'b'])) = [30, 0, 0, 0, 0x2, 0]
    ∧ (after (due 0x1A 0x40 2 5 0 [] 0x40 (chars ['A', 'b']))).readBits 0 30 = codes [1, 2, 0, 0, 0] := by decide

-- A2 and A6; A9.
theorem test_ARMDEC_keeps_dropped_fill : report (due 0x20 0 2 2 0 [] 0 (chars ['1', '5'])) = [10, 0, 0, 0, 0x2, 0]
    ∧ (after (due 0x20 0 2 2 0 [] 0 (chars ['1', '5']))).readBits 0 12 = codes [1, 5] := by decide
theorem test_ARMDEC_first_bad_byte : report (due 0x20 0 4 0 0 [] 0 (chars ['1', ',', '5', '*']))
    = [0, 0, 0, 0, 0x76, 0x002C0001] := by decide

-- A14, A16.
theorem test_ARMENC_upper_half : report (due 0x21 0 0 18 18 (codes [63, 40, 39]) 0 []) = [3, 0, 0, 0, 0x2, 0]
    ∧ (after (due 0x21 0 0 18 18 (codes [63, 40, 39]) 0 [])).readBytes 0 3 = chars ['w', '`', 'W'] := by decide
theorem test_ARMENC_pads : report (due 0x21 0x20 0 7 12 (codes [1, 5]) 0 []) = [2, 5, 0, 0, 0x2, 0]
    ∧ (after (due 0x21 0x20 0 7 12 (codes [1, 5]) 0 [])).readBytes 0x20 2 = chars ['1', '0'] := by decide

/-- The line of F15, its checksum digits as given. -/
def lineF15 (h₁ h₂ : Char) : List Byte :=
  chars (['!', 'A', 'I', 'V', 'D', 'M', ',', '0', ',', '9', ',', '7', ',', 'B', ',', '1', '5', ',', '9', '*'] ++ [h₁, h₂])

-- F15, and as F5 its checksum in lowercase hex: malformed at the letter.
theorem test_PARSE_accepts : report (due 0x30 0 22 0 0 [] 0 (lineF15 '1' '6'))
    = [0, 0x00093790, 0x0002000F, 0x00011616, 0x2, 0] := by decide
theorem test_PARSE_malformed : report (due 0x30 0 22 0 0 [] 0 (lineF15 '1' 'f')) = [0x00150001, 0, 0, 0, 0x2, 0] := by decide

-- K3, K4.
theorem test_CKSUM_digits : report (due 0x31 0x40 1 0 0 [] 0x40 [0x0A]) = [0x0A, 0x30, 0x41, 0, 0x2, 0] := by decide
theorem test_CKSUM_range : report (due 0x31 250 7 0 0 [] 0 []) = [0, 0, 0, 0, 0x36, 0] := by decide

-- I3.
theorem test_ILLEGAL : report (due 0x00000110 0 0 0 4 (bits [1, 0, 1, 0]) 0 []) = [0, 0, 0, 0, 0x16, 0x00000110] := by decide

/-! ## The host interface -/

-- H1, H2, H4.
theorem test_reset_reads : [(0x000 : BitVec 12), 0x004, 0x008, 0x00C, 0x010, 0x018, 0x040, 0x500, 0x900, 0x002].map
      (fun off => (answer (hostDoes State.reset (.read off 0xF))).bind BusResponse.data)
    = [some 0x41495336, some 1, some 0x08000100, some 1, some 0, some 0, some 0, some 0, some 0, some 0] := by decide
theorem test_misaligned_is_buserr : answer (hostDoes State.reset (.read 0x002 0xF)) = some ⟨.buserr, some 0⟩ := by decide

-- H3.
theorem test_BLEN_write_clamps : (after (hostDoes State.reset (.write 0x018 0xF 5000))).blen = 2048 := by decide

/-- A state whose pending command has two turns left. -/
def busyState : State := { due 0x10 0 0 0 0 [] 0 [] with wait := 2 }

-- H5, H7, H13.
theorem test_busy_write_dropped : (after (hostDoes busyState (.write 0x020 0xF 7))).arg0 = 0
    ∧ (after (hostDoes busyState (.write 0x020 0xF 7))).statusWord = 0x101 := by decide
theorem test_busy_STATUS_write : (after (hostDoes { busyState with ovr := true } (.write 0x010 0xF 0x100))).statusWord = 0x1 := by
  decide
theorem test_reset_abandons : (after (hostDoes busyState .reset)).statusWord = 0 := by decide

-- H10, H11.
theorem test_irq : (after (hostDoes { State.reset with done := true } (.write 0x00C 0xF 3))).irq = true
    ∧ (after (hostDoes { State.reset with done := true, ie := true } (.write 0x010 0xF 2))).irq = false := by decide

-- R65, R67: P1's first word, and the bit order of a BBUF word.
theorem test_CBUF_lanes : (after (hostDoes State.reset (.write 0x400 0xF 0x56494121))).readBytes 0 4
    = chars ['!', 'A', 'I', 'V'] := by decide
theorem test_BBUF_order : (after (hostDoes State.reset (.write 0x800 0xF 0x80000001))).readBits 0 32
    = bits ([1] ++ List.replicate 30 0 ++ [1]) := by decide

-- R97: the expansion of `rdu s, L` and the packing of `ldstr`.
theorem test_pseudo_rdu : (Pseudo.rdu (.num 8) (.reg 2)).expand 4
    = [.wr 0x020 (.num 8), .wr 0x024 (.reg 2), .wr 0x014 (.num 0x10), .rd 15 0x010, .andi 15 15 1, .bnez 15 7] := by decide
-- P2's access 5.
theorem test_pseudo_ldstr : (Pseudo.ldstr 0x10 (chars [',', '2'])).expand 0 = [.wr 0x410 (.num 0x0000322C)] := by decide

/-! ## The host's fixed names -/

theorem test_withFetchWord_runs : (after ({ State.reset with arg1 := 33 }.withFetchWord 32 0x10)).statusWord = 0x26 := by decide

/-! ## Witnesses: states and operands that meet the hypotheses of the statements -/

theorem witness_DecodeFollowsOpcodeMap : (0x13 : Word) ∉ [0x10, 0x11, 0x12, 0x18, 0x19, 0x1A, 0x20, 0x21, 0x30, (0x31 : Word)] := by
  decide

theorem witness_DecodeAndEncodeAgree : Instr.cksum.wellFormed = true ∧ (Instr.illegal 0).wellFormed = true := by decide

theorem witness_StepPerformsLatchedCommand :
    (due 0x10 0 8 0 8 [] 0 []).pending = some ⟨0x10, 0, 8, 0, true⟩ ∧ (due 0x10 0 8 0 8 [] 0 []).wait = 0
      ∧ State.reset.pending = none ∧ busyState.wait ≠ 0 := by decide

theorem witness_PendingCommandComesDueUnchanged :
    (hostDoes busyState .idle).pending = some ⟨0x10, 0, 0, 0, true⟩ ∧ ∀ e ∈ (hostDoes busyState .idle).bus, e ≠ .reset := by
  decide

/-- A command of operands `a0`, `a1`, `a2` with BLEN = 8. -/
def operands (a0 a1 a2 : Word) : State := due 0 a0 a1 a2 8 (bits [1, 0, 0, 0, 0, 0, 0, 1]) 0 []

-- The clauses of the bit reads at their boundaries: L = 33; s + L = BLEN + 1; L = 0 at s = BLEN + 1; s + L = BLEN.
theorem witness_RduReadsUnsignedField : 32 < (operands 0 33 0).op1
    ∧ ((operands 1 8 0).op1 ≤ 32 ∧ (operands 1 8 0).blen < (operands 1 8 0).op0 + (operands 1 8 0).op1)
    ∧ ((operands 9 0 0).op1 ≤ 32 ∧ (operands 9 0 0).blen < (operands 9 0 0).op0 + (operands 9 0 0).op1)
    ∧ ((operands 0 8 0).op1 ≤ 32 ∧ (operands 0 8 0).op0 + (operands 0 8 0).op1 ≤ (operands 0 8 0).blen) := by decide

theorem witness_RdsReadsSignedField : 32 < (operands 0 33 0).op1
    ∧ ((operands 1 8 0).op1 ≤ 32 ∧ (operands 1 8 0).blen < (operands 1 8 0).op0 + (operands 1 8 0).op1)
    ∧ ((operands 8 0 0).op1 ≤ 32 ∧ (operands 8 0 0).op0 + (operands 8 0 0).op1 ≤ (operands 8 0 0).blen) := by decide

-- d + n = 257, d + n = 256.
theorem witness_RdtxtDecodesText : 256 < (operands 0 5 252).op2 + (operands 0 5 252).op1
    ∧ (operands 0 4 252).op2 + (operands 0 4 252).op1 ≤ 256 := by decide

/-- A command of operands `a0`, `a1` with BLEN = 2044. -/
def nearlyFull (a0 a1 a2 : Word) : State := due 0 a0 a1 a2 2044 [] 0 []

-- L = 33; BLEN + L = 2049; BLEN + L = 2048.
theorem witness_WruPacksUnsignedField : 32 < (nearlyFull 1 33 0).op1
    ∧ ((nearlyFull 1 5 0).op1 ≤ 32 ∧ 2048 < (nearlyFull 1 5 0).blen + (nearlyFull 1 5 0).op1)
    ∧ ((nearlyFull 1 4 0).op1 ≤ 32 ∧ (nearlyFull 1 4 0).blen + (nearlyFull 1 4 0).op1 ≤ 2048) := by decide

theorem witness_WrsPacksSignedField : 32 < (nearlyFull 1 33 0).op1
    ∧ ((nearlyFull 1 5 0).op1 ≤ 32 ∧ 2048 < (nearlyFull 1 5 0).blen + (nearlyFull 1 5 0).op1)
    ∧ ((nearlyFull 1 4 0).op1 ≤ 32 ∧ (nearlyFull 1 4 0).blen + (nearlyFull 1 4 0).op1 ≤ 2048) := by decide

-- a + m = 257; a + m = 256 with BLEN + 6n = 2050; a + m = 256 with n = 0.
theorem witness_WrtxtPacksText : 256 < (nearlyFull 250 7 1).op0 + (nearlyFull 250 7 1).op1
    ∧ ((nearlyFull 250 6 1).op0 + (nearlyFull 250 6 1).op1 ≤ 256 ∧ 2048 < (nearlyFull 250 6 1).blen + 6 * (nearlyFull 250 6 1).op2)
    ∧ ((nearlyFull 250 6 0).op0 + (nearlyFull 250 6 0).op1 ≤ 256 ∧ (nearlyFull 250 6 0).blen + 6 * (nearlyFull 250 6 0).op2 ≤ 2048) := by
  decide

/-- ARMDEC of two characters with fill `f`. -/
def payloadState (c₀ c₁ : Byte) (a n f : Word) : State := due 0x20 a n f 0 [] 254 [c₀, c₁]

-- a + n = 257; f = 6n + 1; the bytes 0x2F and 0x78 are bad and 0x30, 0x77 are not; f = 6n.
theorem witness_ArmdecReplacesBitString :
    256 < (payloadState 0x30 0x77 254 3 0).op0 + (payloadState 0x30 0x77 254 3 0).op1
    ∧ ((payloadState 0x30 0x77 254 2 13).op0 + (payloadState 0x30 0x77 254 2 13).op1 ≤ 256
        ∧ 6 * (payloadState 0x30 0x77 254 2 13).op1 < (payloadState 0x30 0x77 254 2 13).op2)
    ∧ 0x77 < ((payloadState 0x30 0x78 254 2 12).byte 255).toNat ∧ ((payloadState 0x2F 0x78 254 2 12).byte 254).toNat < 0x30
    ∧ ¬ (((payloadState 0x30 0x78 254 2 12).byte 254).toNat < 0x30 ∨ 0x77 < ((payloadState 0x30 0x78 254 2 12).byte 254).toNat)
    ∧ ((payloadState 0x30 0x77 254 2 12).op2 ≤ 6 * (payloadState 0x30 0x77 254 2 12).op1
        ∧ ∀ k < 2, ¬ (((payloadState 0x30 0x77 254 2 12).byte (254 + k)).toNat < 0x30
          ∨ 0x77 < ((payloadState 0x30 0x77 254 2 12).byte (254 + k)).toNat)) := by decide

-- d + c = 257; d + c = 256 with s + L = BLEN + 1; d + c = 256 with s + L = BLEN.
theorem witness_ArmencWritesArmor :
    256 < (operands 255 0 8).op0 + ((operands 255 0 8).op2 + 5) / 6
    ∧ ((operands 254 1 8).op0 + ((operands 254 1 8).op2 + 5) / 6 ≤ 256
        ∧ (operands 254 1 8).blen < (operands 254 1 8).op1 + (operands 254 1 8).op2)
    ∧ ((operands 254 0 8).op0 + ((operands 254 0 8).op2 + 5) / 6 ≤ 256
        ∧ (operands 254 0 8).op1 + (operands 254 0 8).op2 ≤ (operands 254 0 8).blen) := by decide

/-- The fields of the line of F15. -/
def envelopeF15 : Envelope where
  talker := 0
  total := 0
  frag := 9
  seq := some 7
  chan := 1
  payloadAt := 15
  payloadLen := 2
  fill := 9
  star := 19
  received := 0x16

/-- PARSE of the line of F15, at the last CBUF address where it fits. -/
def parseF15 : State := due 0x30 234 22 0 0 [] 234 (lineF15 '1' '6')

theorem witness_lineF15_matches : IsLine (lineF15 '1' '6') envelopeF15 := by
  refine ⟨0x41, 0x49, 0x56, 0x44, 0x4D, 0x30, 0x39, 0x42, 0x39, 0x31, 0x36, [0x37], [0x31, 0x35], [], by decide, by decide,
    by decide, by decide, by decide, by decide, ?_⟩
  unfold LineDigit LineHex LineDigit LinePayloadByte
  decide

theorem readBytes_parseF15 : parseF15.readBytes parseF15.op0 parseF15.op1 = lineF15 '1' '6' := by decide

-- a + n = 257 and a + n = 256.
theorem witness_ParseReportsMatchingLine : 256 < (operands 235 22 0).op0 + (operands 235 22 0).op1
    ∧ parseF15.op0 + parseF15.op1 ≤ 256 ∧ IsLine (parseF15.readBytes parseF15.op0 parseF15.op1) envelopeF15 :=
  ⟨by decide, by decide, readBytes_parseF15 ▸ witness_lineF15_matches⟩

theorem not_isLine_nil (e : Envelope) : ¬ IsLine [] e := by
  rintro ⟨_, _, _, _, _, _, _, _, _, _, _, _, _, _, h, _⟩
  simp at h

-- n = 0 at a = 256 (F9): the line ends at once.
theorem witness_ParseReportsFailureIndex : (operands 256 0 0).op0 + (operands 256 0 0).op1 ≤ 256
    ∧ ¬ ∃ e, IsLine ((operands 256 0 0).readBytes (operands 256 0 0).op0 (operands 256 0 0).op1) e :=
  ⟨by decide, fun ⟨e, h⟩ => not_isLine_nil e h⟩

/-- "!AJ", whose third byte cannot continue a match. -/
def parseBadTalker : State := due 0x30 253 3 0 0 [] 253 (chars ['!', 'A', 'J'])

theorem not_canContinue_badTalker : ¬ CanContinue (chars ['!', 'A', 'J']) := by
  rintro ⟨rest, e, t₁, t₂, t₃, t₄, t₅, total, frag, chan, fill, h₁, h₂, seq, payload, eols, hl, -, h, -⟩
  simp only [chars, List.map_cons, List.map_nil, List.cons_append, List.nil_append, List.cons.injEq] at hl
  rw [← hl.2.2.1] at h
  revert h
  decide

-- A failure index inside the line: i = 2 of n = 3.
theorem witness_ParseReportsFailureIndex_inside : parseBadTalker.op0 + parseBadTalker.op1 ≤ 256
    ∧ (¬ ∃ e, IsLine (parseBadTalker.readBytes parseBadTalker.op0 parseBadTalker.op1) e)
    ∧ CanContinue ((parseBadTalker.readBytes parseBadTalker.op0 parseBadTalker.op1).take 2) ∧ 2 < parseBadTalker.op1
    ∧ ¬ CanContinue ((parseBadTalker.readBytes parseBadTalker.op0 parseBadTalker.op1).take (2 + 1))
    ∧ (after parseBadTalker).res0 = 0x00020001 := by
  have line : parseBadTalker.readBytes parseBadTalker.op0 parseBadTalker.op1 = chars ['!', 'A', 'J'] := by decide
  rw [line]
  exact ⟨by decide, fun ⟨e, h⟩ => not_canContinue_badTalker ⟨[], e, by simpa using h⟩,
    ⟨(lineF15 '1' '6').drop 2, envelopeF15, witness_lineF15_matches⟩, by decide, not_canContinue_badTalker, by decide⟩

theorem witness_CksumXorsBytes : 256 < (operands 250 7 0).op0 + (operands 250 7 0).op1
    ∧ (operands 250 6 0).op0 + (operands 250 6 0).op1 ≤ 256 := by decide

/-- An idle state with latency 0 fixed for the next command. -/
def promptly (e : BusEvent) : State := { State.reset with latencies := [0], bus := [e] }

theorem witness_IllegalCommandFails : (0x00000110 : Word) ∉ assignedWords ∧ (promptly (.write 0x014 0xF 0x110)).pending = none
    ∧ (promptly (.write 0x014 0xF 0x110)).bus = .write 0x014 0xF 0x110 :: []
    ∧ (promptly (.write 0x014 0xF 0x110)).latencies = [0] := by decide

theorem witness_FailedCommandChangesNothingElse :
    exec (.illegal 0x13) State.reset = .next (State.reset.raise .illegal 0x13) ∧ (State.reset.raise .illegal 0x13).err = true :=
  ⟨rfl, rfl⟩

theorem witness_EngineLeavesHostRegisters : ∃ t, exec .wru (operands 70 6 0) = .next t := ⟨_, rfl⟩

theorem witness_WrapSetOnlyByPacking : exec .wru (due 0x18 70 6 0 0 [] 0 []) = .next (after (due 0x18 70 6 0 0 [] 0 []))
    ∧ (after (due 0x18 70 6 0 0 [] 0 [])).wrap ≠ (due 0x18 70 6 0 0 [] 0 []).wrap := ⟨rfl, by decide⟩

theorem witness_OnlyNamedCommandsStore : (∃ t, exec .armdec (operands 0 0 0) = .next t) ∧ ∃ t, exec .rdtxt (operands 0 1 0) = .next t :=
  ⟨⟨_, rfl⟩, ⟨_, rfl⟩⟩

-- The last word of each window.
theorem witness_CbufWindowIsLittleEndian : 63 < 64 ∧ (hostDoes State.reset (.read (BitVec.ofNat 12 (0x400 + 4 * 63)) 0xF)).pending = none
    ∧ (hostDoes State.reset (.read (BitVec.ofNat 12 (0x400 + 4 * 63)) 0xF)).bus = [.read 0x4FC 0xF]
    ∧ (hostDoes State.reset (.write (BitVec.ofNat 12 (0x400 + 4 * 63)) 0xF 1)).bus = [.write 0x4FC 0xF 1] := by decide

theorem witness_BbufWindowIsMsbFirst : 63 < 64 ∧ (hostDoes State.reset (.read (BitVec.ofNat 12 (0x800 + 4 * 63)) 0xF)).pending = none
    ∧ (hostDoes State.reset (.read (BitVec.ofNat 12 (0x800 + 4 * 63)) 0xF)).bus = [.read 0x8FC 0xF]
    ∧ (hostDoes State.reset (.write (BitVec.ofNat 12 (0x800 + 4 * 63)) 0xF 1)).bus = [.write 0x8FC 0xF 1] := by decide

theorem witness_StatusWriteClearsFlags : (hostDoes State.reset (.write 0x010 0xF 0x10A)).pending = none
    ∧ (hostDoes busyState (.write 0x010 0xF 0x10A)).wait ≠ 0
    ∧ (hostDoes busyState (.write 0x010 0xF 0x10A)).bus = .write 0x010 0xF 0x10A :: [] := by decide

theorem witness_CmdWriteAcceptsCommand : (hostDoes State.reset (.write 0x014 0xF 0x10)).pending = none
    ∧ (hostDoes State.reset (.write 0x014 0xF 0x10)).bus = .write 0x014 0xF 0x10 :: [] := by decide

theorem witness_BusyWriteIsDropped : (hostDoes busyState (.write 0x014 0xF 0x10)).pending = some ⟨0x10, 0, 0, 0, true⟩
    ∧ (hostDoes busyState (.write 0x014 0xF 0x10)).wait ≠ 0 ∧ (0x014 : BitVec 12).toNat % 4 = 0 ∧ (0x014 : BitVec 12) ≠ 0x010
    ∧ (0x010 : BitVec 12).toNat % 4 = 0 := by decide

theorem witness_BusyReadIsCurrentOrFree : (hostDoes busyState (.read 0x4FC 0xF)).pending = some ⟨0x10, 0, 0, 0, true⟩
    ∧ (hostDoes busyState (.read 0x4FC 0xF)).wait ≠ 0 ∧ (hostDoes busyState (.read 0x4FC 0xF)).bus = .read 0x4FC 0xF :: []
    ∧ [(0x4FC : BitVec 12), 0x500, 0x8FC, 0x900, 0x018, 0x010, 0x02C].all (fun off => off.toNat % 4 == 0) := by decide

theorem witness_BadAccessGetsBuserr : (0xFFF : BitVec 12).toNat % 4 ≠ 0 ∧ (0x7 : BitVec 4) ≠ 0xF
    ∧ (hostDoes State.reset (.read 0xFFF 0xF)).bus = .read 0xFFF 0xF :: []
    ∧ (hostDoes busyState (.write 0x010 0x7 1)).bus = .write 0x010 0x7 1 :: [] ∧ busyState.wait ≠ 0 := by decide

theorem witness_ReadsHaveNoSideEffect : (hostDoes State.reset (.read 0x010 0xF)).pending = none
    ∧ (hostDoes State.reset (.read 0x010 0xF)).bus = .read 0x010 0xF :: [] := by decide

theorem witness_RegisterMapReads : (hostDoes State.reset (.read 0x03C 0xF)).pending = none
    ∧ (hostDoes State.reset (.read 0x03C 0xF)).bus = .read 0x03C 0xF :: [] := by decide

theorem witness_StatusReadLayout : (hostDoes busyState (.read 0x010 0xF)).wait ≠ 0
    ∧ (hostDoes busyState (.read 0x010 0xF)).bus = .read 0x010 0xF :: [] := by decide

theorem witness_ReservedOffsetsReadZero : (hostDoes State.reset (.read 0x900 0xF)).pending = none ∧ (0x900 : BitVec 12).toNat % 4 = 0
    ∧ 0x900 ≤ (0x900 : BitVec 12).toNat ∧ (0x040 ≤ (0x3FC : BitVec 12).toNat ∧ (0x3FC : BitVec 12).toNat < 0x400)
    ∧ (hostDoes State.reset (.write 0x900 0xF 1)).bus = .write 0x900 0xF 1 :: [] := by decide

theorem witness_HostWritesOneRegister : (hostDoes State.reset (.write 0x018 0xF 2049)).pending = none
    ∧ (hostDoes State.reset (.write 0x018 0xF 2049)).bus = .write 0x018 0xF 2049 :: []
    ∧ (hostDoes State.reset (.write 0x00C 0xF 3)).bus = .write 0x00C 0xF 3 :: []
    ∧ (hostDoes State.reset (.write 0x028 0xF 1)).bus = .write 0x028 0xF 1 :: [] := by decide

theorem witness_ReadOnlyRegistersKeep : (hostDoes State.reset (.write 0x03C 0xF 1)).pending = none
    ∧ (0x03C : BitVec 12) ∈ [(0x000 : BitVec 12), 0x004, 0x008, 0x01C, 0x030, 0x034, 0x038, 0x03C]
    ∧ (hostDoes State.reset (.write 0x03C 0xF 1)).bus = .write 0x03C 0xF 1 :: [] := by decide

theorem witness_IrqFollowsDoneAndIe : (∃ t, exec .rdu (operands 0 8 0) = .next t)
    ∧ (hostDoes { State.reset with done := true } (.write 0x00C 0xF 2)).pending = none
    ∧ (hostDoes { State.reset with done := true } (.write 0x00C 0xF 2)).bus = .write 0x00C 0xF 2 :: []
    ∧ (hostDoes State.reset (.write 0x014 0xF 0x10)).bus = .write 0x014 0xF 0x10 :: []
    ∧ (hostDoes State.reset (.write 0x010 0xF 2)).bus = .write 0x010 0xF 2 :: [] :=
  ⟨⟨_, rfl⟩, rfl, rfl, rfl, rfl⟩

theorem witness_ResetRegisters : (hostDoes State.reset .reset).pending = none ∧ (hostDoes busyState .reset).wait ≠ 0
    ∧ (hostDoes busyState .reset).bus = .reset :: [] := by decide

theorem witness_ResetAbandonsCommand : (hostDoes busyState .reset).wait ≠ 0 ∧ (hostDoes busyState .reset).bus = .reset :: [] := by
  decide

/-- The invariant holds in a state with a written buffer, so it constrains more than reset. -/
theorem witness_StepKeepsInvariant : Inv (hostDoes { State.reset with bbuf := [(0, true)], cbuf := [(255, 1)], blen := 2048 } .idle)
    ∧ ∃ t, step (hostDoes { State.reset with bbuf := [(0, true)], cbuf := [(255, 1)], blen := 2048 } .idle) = .next t := by
  refine ⟨⟨by decide, by decide, by decide, by decide, by decide, ?_, by decide, by decide⟩, ⟨_, rfl⟩⟩
  intro p h
  cases h

theorem witness_OvrSetOnlyByDroppedWrite :
    step (hostDoes busyState (.write 0x020 0xF 7)) = .next (after (hostDoes busyState (.write 0x020 0xF 7)))
      ∧ (hostDoes busyState (.write 0x020 0xF 7)).ovr = false ∧ (after (hostDoes busyState (.write 0x020 0xF 7))).ovr = true :=
  ⟨rfl, by decide, by decide⟩

theorem witness_BusyFallsOnlyAtCompletionOrReset :
    step (due 0x10 0 0 0 0 [] 0 []) = .next (after (due 0x10 0 0 0 0 [] 0 []))
      ∧ (due 0x10 0 0 0 0 [] 0 []).pending = some ⟨0x10, 0, 0, 0, true⟩ ∧ (after (due 0x10 0 0 0 0 [] 0 [])).pending = none
      ∧ (due 0x10 0 0 0 0 [] 0 []).done = false ∧ (after (due 0x10 0 0 0 0 [] 0 [])).done = true
      ∧ step (hostDoes busyState .reset) = .next (after (hostDoes busyState .reset))
      ∧ (after (hostDoes busyState .reset)).pending = none := by
  refine ⟨rfl, by decide, by decide, by decide, by decide, rfl, by decide⟩

-- v = 2^L - 1 and L = 32; v = 2^(L-1) - 1 and -2^(L-1).
theorem witness_UnsignedFieldRoundTrip : (32 ≤ 32 ∧ State.reset.blen + 32 ≤ 2048 ∧ (0xFFFFFFFF : Word).toNat < 2 ^ 32)
    ∧ (0 ≤ 32 ∧ (0 : Word).toNat < 2 ^ 0) := by decide

theorem witness_SignedFieldRoundTrip : State.reset.blen + 8 ≤ 2048 ∧ (-(2 ^ 7 : Int) ≤ (0xFFFFFF80 : Word).toInt)
    ∧ (0xFFFFFF80 : Word).toInt < 2 ^ 7 ∧ -(2 ^ 7 : Int) ≤ (0x7F : Word).toInt ∧ (0x7F : Word).toInt < 2 ^ 7 := by decide

/-- "b1" at 254, the end of CBUF. -/
def textAtEnd : State := due 0 0 0 0 2036 [] 254 (chars ['b', '1'])

theorem witness_TextRoundTrip : 254 + 2 ≤ 256 ∧ textAtEnd.blen + 6 * 2 ≤ 2048
    ∧ (∀ k < 2, 0x20 ≤ (upper (textAtEnd.byte (254 + k))).toNat ∧ (upper (textAtEnd.byte (254 + k))).toNat ≤ 0x5F)
    ∧ upper (textAtEnd.byte 254) ≠ 0x20 ∧ upper (textAtEnd.byte 255) ≠ 0x20 ∧ upper (textAtEnd.byte 255) ≠ 0x40 := by decide

theorem witness_ArmorRoundTrip : 254 + ((8 : Word).toNat + 5) / 6 ≤ 256 ∧ (0 : Word).toNat + (8 : Word).toNat ≤ (operands 0 0 0).blen := by
  decide

/-- "1`" at 254; the last character's low 3 bits are 0. -/
def payloadAtEnd : State := due 0 0 0 0 0 [] 254 (chars ['1', '`'])

theorem witness_PayloadRoundTrip : 254 + 2 ≤ 256 ∧ (3 : Word).toNat ≤ 5
    ∧ (∀ k < 2, (0x30 ≤ (payloadAtEnd.byte (254 + k)).toNat ∧ (payloadAtEnd.byte (254 + k)).toNat ≤ 0x57)
      ∨ (0x60 ≤ (payloadAtEnd.byte (254 + k)).toNat ∧ (payloadAtEnd.byte (254 + k)).toNat ≤ 0x77))
    ∧ ∀ j < 3, (unarmor (payloadAtEnd.byte (254 + 2 - 1))).testBit j = false := by decide

theorem witness_CksumGivesSentenceChecksum : (234 : Word).toNat + (22 : Word).toNat ≤ 256
    ∧ IsLine (parseF15.readBytes (234 : Word).toNat (22 : Word).toNat) envelopeF15 :=
  ⟨by decide, readBytes_parseF15 ▸ witness_lineF15_matches⟩

theorem witness_BitsPastBlenAreNotRead :
    (∀ k < (operands 0 8 0).blen, { operands 0 8 0 with bbuf := (operands 0 8 0).bbuf.store 8 true }.bit k = (operands 0 8 0).bit k)
      ∧ (∃ t, exec .rdu (operands 0 8 0) = .next t)
      ∧ ∃ u, exec .rdu { operands 0 8 0 with bbuf := (operands 0 8 0).bbuf.store 8 true } = .next u :=
  ⟨by decide, ⟨_, rfl⟩, ⟨_, rfl⟩⟩

theorem witness_ArmencReadsOnlyItsBits :
    (∀ k, (operands 0 1 6).op1 ≤ k → k < (operands 0 1 6).op1 + (operands 0 1 6).op2 →
        { operands 0 1 6 with bbuf := ((operands 0 1 6).bbuf.store 0 false).store 7 false }.bit k = (operands 0 1 6).bit k)
      ∧ (∃ t, exec .armenc (operands 0 1 6) = .next t)
      ∧ ∃ u, exec .armenc { operands 0 1 6 with bbuf := ((operands 0 1 6).bbuf.store 0 false).store 7 false } = .next u := by
  refine ⟨fun k h₁ h₂ => ?_, ⟨_, rfl⟩, ⟨_, rfl⟩⟩
  have all : ∀ j < 7, 1 ≤ j →
      { operands 0 1 6 with bbuf := ((operands 0 1 6).bbuf.store 0 false).store 7 false }.bit j = (operands 0 1 6).bit j := by
    decide
  exact all k h₂ h₁

theorem witness_ParseDependsOnItsLineOnly : parseF15.latched = { parseF15 with res0 := 5, wrap := true }.latched
    ∧ (∀ k < parseF15.op1, parseF15.byte (parseF15.op0 + k) = { parseF15 with res0 := 5, wrap := true }.byte (parseF15.op0 + k))
    ∧ (∃ t, exec .parse parseF15 = .next t) ∧ ∃ t, exec .parse { parseF15 with res0 := 5, wrap := true } = .next t :=
  ⟨rfl, fun _ _ => rfl, ⟨_, rfl⟩, ⟨_, rfl⟩⟩

/-- A host program that is a single `poll`, standing at statement `k`. -/
def pollAt (k : Nat) : HostProgram :=
  { code := expandPoll 0, pc := k, h := Vector.replicate 16 1, halted := false, block := busyState }

theorem witness_PollLoopsWhileBusy : (pollAt 0).halted = false ∧ (pollAt 0).block.bus = [] ∧ (pollAt 0).block.engineDue = false
    ∧ (pollAt 0).code[0]? = (expandPoll 0)[0]? ∧ (pollAt 1).code[1]? = (expandPoll 0)[1]? ∧ (pollAt 2).code[2]? = (expandPoll 0)[2]?
    ∧ (pollAt 0).pc = 0 ∧ (pollAt 1).pc = 0 + 1 ∧ (pollAt 2).pc = 0 + 2 := by decide

/-- A host program at its start, with the block just reset. -/
def started (c : List HostStmt) : HostProgram :=
  { code := c, pc := 0, h := Vector.replicate 16 7, halted := false, block := State.reset }

theorem witness_CommandStatementsIssueTheirCommand : (started (Pseudo.expand 0 (.wrs (.num 0xFFFFFFFF) (.reg 3)))).pc = 0
    ∧ (started (Pseudo.expand 0 (.armenc (.num 0xFE) (.num 0) (.reg 3)))).block.pending = none
    ∧ (started (Pseudo.expand 0 (.armenc (.num 0xFE) (.num 0) (.reg 3)))).block.bus = [] := by decide

theorem witness_LdstrWritesItsText : (started (Pseudo.expand 0 (.ldstr 252 (chars ['A', 'B'])))).pc = 0
    ∧ (started (Pseudo.expand 0 (.ldstr 252 (chars ['A', 'B'])))).block.pending = none ∧ 252 % 4 = 0
    ∧ 252 + 4 * (((chars ['A', 'B']).length + 3) / 4) ≤ 256 := by decide

-- R13, R14: both sides of every boundary of the tables.
theorem witness_CharacterTablesFollowTheirFormulas : [0, 31, 32, 63].map chr6 = [0x40, 0x5F, 0x20, 0x3F]
    ∧ [(0x1F : Byte), 0x20, 0x3F, 0x40, 0x5F, 0x60].map inv6 = [0, 32, 63, 0, 31, 0]
    ∧ [(0x60 : Byte), 0x61, 0x7A, 0x7B].map upper = [0x60, 0x41, 0x5A, 0x7B] := by decide

-- R15, R16.
theorem witness_ArmorMapsFollowTheirFormulas : [0, 39, 40, 63].map armor = [0x30, 0x57, 0x60, 0x77]
    ∧ [(0x30 : Byte), 0x57, 0x58, 0x59, 0x5F, 0x60, 0x77].map unarmor = [0, 39, 40, 33, 39, 40, 63] := by decide

end Sys2Proof.Tests
end

section
/-! PROOFS of the scope family (O5, O19, O56, O57), and the rules they need: what a step is, what a turn of the host can
change while a command is pending, and the two ways an engine step ends. -/

namespace Sys2Proof.Machine

/-! ### What a step is (R33, R74) -/

/-- When the pending command is due the engine performs it. -/
theorem step_of_due {s : State} {p : Pending} (hp : s.pending = some p) (hw : s.wait = 0) :
    step s = exec (decode p.word) s := by
  have due : s.engineDue = true := s.engineDue_iff.mpr ⟨by simp [hp], hw⟩
  rw [step, if_pos due, s.latched_pending hp]

/-- With no command pending, or latency left, the step is a turn of the host. -/
theorem step_of_not_due {s : State} (h : s.pending = none ∨ s.wait ≠ 0) : step s = .next s.hostTurn := by
  have notDue : ¬ s.engineDue = true := by
    rw [s.engineDue_iff]
    rintro ⟨busy, zero⟩
    rcases h with idle | left
    · simp [idle] at busy
    · exact left zero
  rw [step, if_neg notDue]

theorem run_succ_of_step {s t : State} (h : step s = .next t) (k : Nat) :
    Host.Core.run Sys2Proof.core (k + 1) s = Host.Core.run Sys2Proof.core k t := by
  have hcore : Sys2Proof.core.step s = .next t := h
  simp only [Host.Core.run, hcore]

/-! ### What the host can change while a command is pending (R62, R63) -/

/-- `t` is `s` but for what the host can touch while a command is pending: the flags a STATUS write clears, OVR, the draw
counter and the latest answer. -/
def BusyTouched (s t : State) : Prop :=
  ∃ done wrap ovr draws response,
    t = { s with done := done, wrap := wrap, ovr := ovr, draws := draws, response := response }

theorem BusyTouched.refl (s : State) : BusyTouched s s := ⟨_, _, _, _, _, rfl⟩

theorem BusyTouched.trans {s t u : State} (h : BusyTouched s t) (h' : BusyTouched t u) : BusyTouched s u := by
  obtain ⟨_, _, _, _, _, rfl⟩ := h
  obtain ⟨_, _, _, _, _, rfl⟩ := h'
  exact ⟨_, _, _, _, _, rfl⟩

theorem BusyTouched.busy_eq {s t : State} (h : BusyTouched s t) : t.busy = s.busy := by
  obtain ⟨_, _, _, _, _, rfl⟩ := h; rfl

theorem BusyTouched.wait_eq {s t : State} (h : BusyTouched s t) : t.wait = s.wait := by
  obtain ⟨_, _, _, _, _, rfl⟩ := h; rfl

theorem BusyTouched.bus_eq {s t : State} (h : BusyTouched s t) : t.bus = s.bus := by
  obtain ⟨_, _, _, _, _, rfl⟩ := h; rfl

theorem BusyTouched.respond {s t : State} (h : BusyTouched s t) (r : BusResponse) : BusyTouched s (t.respond r) := by
  obtain ⟨_, _, _, _, _, rfl⟩ := h
  exact ⟨_, _, _, _, _, rfl⟩

theorem State.hostRead_busyTouched (s : State) (off : BitVec 12) (lanes : BitVec 4) :
    BusyTouched s (s.hostRead off lanes) := by
  obtain ⟨d, r, h⟩ := s.hostRead_cases off lanes
  exact ⟨_, _, _, d, some r, h⟩

theorem State.writeBusy_busyTouched (s : State) (l : Location) (w : Word) : BusyTouched s (s.writeBusy l w) := by
  obtain ⟨-, h⟩ | ⟨-, h⟩ := s.writeBusy_cases l w
  · exact ⟨_, _, _, _, _, h⟩
  · exact ⟨_, _, true, _, _, h⟩

theorem State.hostWrite_busyTouched {s : State} (busy : s.busy = true) (off : BitVec 12) (lanes : BitVec 4) (w : Word) :
    BusyTouched s (s.hostWrite off lanes w) := by
  obtain ⟨-, h⟩ | ⟨-, -, h⟩ | ⟨-, idle, -⟩ := s.hostWrite_cases off lanes w
  · rw [h]; exact (BusyTouched.refl s).respond _
  · rw [h]; exact (s.writeBusy_busyTouched _ w).respond _
  · rw [busy] at idle; cases idle

/-- Every event but a reset leaves the pending command, the buffers and the registers of the engine alone. -/
theorem State.deliver_busyTouched {s : State} (busy : s.busy = true) {e : BusEvent} (he : e ≠ .reset) :
    BusyTouched s (s.deliver e) := by
  cases e with
  | idle => exact .refl s
  | read off lanes => exact s.hostRead_busyTouched off lanes
  | write off lanes w => exact s.hostWrite_busyTouched busy off lanes w
  | reset => exact absurd rfl he

/-- `k` turns of the host have passed: the latency has run down and the bus has advanced by `k`. -/
def State.elapsed (s : State) (k : Nat) : State := { s with wait := s.wait - k, bus := s.bus.drop k }

theorem State.elapsed_succ (s : State) (k : Nat) : (s.elapsed 1).elapsed k = s.elapsed (k + 1) := by
  simp [State.elapsed, Nat.sub_sub, Nat.add_comm]

theorem BusyTouched.elapsed {s t : State} (h : BusyTouched s t) (k : Nat) : BusyTouched (s.elapsed k) (t.elapsed k) := by
  obtain ⟨_, _, _, _, _, rfl⟩ := h
  exact ⟨_, _, _, _, _, rfl⟩

/-- A turn of the host without a reset, while a command is pending. -/
theorem State.hostTurn_busyTouched {s : State} (busy : s.busy = true) (noReset : ∀ e ∈ s.bus, e ≠ .reset) :
    BusyTouched (s.elapsed 1) s.hostTurn := by
  cases hb : s.bus with
  | nil =>
    have turn : s.hostTurn = s.elapsed 1 := by simp [s.hostTurn_nil hb, State.elapsed, hb]
    rw [turn]; exact .refl _
  | cons e rest =>
    have turn : s.hostTurn = (s.elapsed 1).deliver e := by simp [s.hostTurn_cons e rest hb, State.elapsed, hb]
    rw [turn]; exact State.deliver_busyTouched (s := s.elapsed 1) busy (noReset e (by simp [hb]))

/-- As many steps as the latency allows are turns of the host, and touch nothing the pending command uses. -/
theorem run_busyTouched (k : Nat) {s : State} (busy : s.busy = true) (noReset : ∀ e ∈ s.bus, e ≠ .reset)
    (hk : k ≤ s.wait) : ∃ u, Host.Core.run Sys2Proof.core k s = .next u ∧ BusyTouched (s.elapsed k) u := by
  induction k generalizing s with
  | zero => exact ⟨s, rfl, .refl s⟩
  | succ k ih =>
    have turn := State.hostTurn_busyTouched busy noReset
    have left : k ≤ s.hostTurn.wait := by rw [turn.wait_eq]; exact Nat.le_sub_of_add_le hk
    have later : ∀ e ∈ s.hostTurn.bus, e ≠ .reset := by
      rw [turn.bus_eq]; exact fun e he => noReset e (List.mem_of_mem_drop he)
    obtain ⟨u, hrun, rest⟩ := ih (turn.busy_eq.trans busy) later left
    rw [run_succ_of_step (step_of_not_due (.inr (by omega)))]
    exact ⟨u, hrun, s.elapsed_succ k ▸ (turn.elapsed k).trans rest⟩

/-- Settles O5: the `s.wait` steps are turns of the host, each of which only touches what `BusyTouched` names. -/
theorem pendingCommandComesDueUnchanged : Obligations.PendingCommandComesDueUnchanged := by
  intro s p hp noReset
  obtain ⟨u, hrun, _, _, _, _, _, rfl⟩ := run_busyTouched s.wait (by simp [State.busy, hp]) noReset (Nat.le_refl _)
  have due : s.wait - s.wait = 0 := Nat.sub_self _
  exact ⟨_, hrun, hp, due, fun _ => rfl, fun _ => rfl, rfl, rfl, rfl, rfl, rfl, rfl, step_of_due hp due⟩

/-! ### How an engine step ends (R17, R33) -/

theorem State.stored_keeps (s : State) (cb : Memory Byte) (bb : Memory Bool) (n : Nat) (wr : Bool) :
    EngineKeeps s (s.stored cb bb n wr) := by
  constructor <;> rfl

/-- Every command ends by `raise` with an error code or by `complete`. -/
theorem exec_fails_or_completes (i : Instr) (s : State) : ∃ t, exec i s = .next t ∧
    ((∃ code info, code ≠ .noError ∧ Fails s t code info) ∨ ∃ r0 r1 r2 r3, Completes s t r0 r1 r2 r3) := by
  obtain ⟨code, info, hcode, h⟩ | ⟨cb, bb, n, wr, r0, r1, r2, r3, -, h⟩ := exec_ends i s
  · exact ⟨_, h, .inl ⟨code, info, hcode, s.raise_spec code info⟩⟩
  · exact ⟨_, h, .inr ⟨r0, r1, r2, r3, State.complete_spec (s.stored_keeps cb bb n wr) r0 r1 r2 r3⟩⟩

/-- Settles O19: both ways a command ends clear BUSY and set DONE. -/
theorem everyCommandEnds : Obligations.EveryCommandEnds := by
  intro i s
  obtain ⟨t, h, ⟨code, info, hcode, fails⟩ | ⟨r0, r1, r2, r3, ok⟩⟩ := exec_fails_or_completes i s
  · exact ⟨t, h, fails.idle, fails.done,
      .inr ⟨fails.err, by rw [fails.errcode]; exact hcode, fails.res0, fails.res1, fails.res2, fails.res3⟩⟩
  · exact ⟨t, h, ok.idle, ok.done, .inl ⟨ok.err, ok.errcode, ok.errinfo⟩⟩

/-! ### The character and armor maps, branch by branch (R13 - R16) -/

theorem toNat_chr6_low {v : Nat} (h : v ≤ 31) : (chr6 v).toNat = v + 64 := by
  rw [chr6, if_pos h, BitVec.toNat_ofNat, Nat.mod_eq_of_lt (by omega)]

theorem toNat_chr6_high {v : Nat} (h : 32 ≤ v) (hv : v < 64) : (chr6 v).toNat = v := by
  rw [chr6, if_neg (by omega), BitVec.toNat_ofNat, Nat.mod_eq_of_lt (by omega)]

theorem inv6_of_letter {c : Byte} (h : 0x40 ≤ c.toNat) (h' : c.toNat ≤ 0x5F) : inv6 c = c.toNat - 64 := by
  rw [inv6, if_pos ⟨h, h'⟩]

theorem inv6_of_symbol {c : Byte} (h : 0x20 ≤ c.toNat) (h' : c.toNat ≤ 0x3F) : inv6 c = c.toNat := by
  rw [inv6, if_neg (by omega), if_pos ⟨h, h'⟩]

theorem inv6_of_unmapped {c : Byte} (h : c.toNat < 0x20 ∨ 0x5F < c.toNat) : inv6 c = 0 := by
  rw [inv6, if_neg (by omega), if_neg (by omega)]

theorem toNat_upper_of_lower {c : Byte} (h : 0x61 ≤ c.toNat) (h' : c.toNat ≤ 0x7A) :
    (upper c).toNat = c.toNat - 0x20 := by
  have noBorrow : (0x20 : Byte) ≤ c := BitVec.le_def.mpr (Nat.le_trans (by decide) h)
  rw [upper, if_pos ⟨h, h'⟩, BitVec.toNat_sub_of_le noBorrow]
  rfl

theorem upper_of_other {c : Byte} (h : c.toNat < 0x61 ∨ 0x7A < c.toNat) : upper c = c := by
  rw [upper, if_neg (by omega)]

/-- Settles O56, one branch of a table at a time. -/
theorem characterTablesFollowTheirFormulas : Obligations.CharacterTablesFollowTheirFormulas :=
  ⟨fun _ hv => ⟨toNat_chr6_low, fun h => toNat_chr6_high h hv⟩,
    fun _ => ⟨inv6_of_letter, inv6_of_symbol, inv6_of_unmapped⟩,
    fun _ => ⟨toNat_upper_of_lower, upper_of_other⟩⟩

theorem toNat_armor_low {v : Nat} (h : v ≤ 39) : (armor v).toNat = v + 48 := by
  rw [armor, if_pos h, BitVec.toNat_ofNat, Nat.mod_eq_of_lt (by omega)]

theorem toNat_armor_high {v : Nat} (h : 40 ≤ v) (hv : v < 64) : (armor v).toNat = v + 56 := by
  rw [armor, if_neg (by omega), BitVec.toNat_ofNat, Nat.mod_eq_of_lt (by omega)]

theorem unarmor_low {c : Byte} (h : c.toNat - 48 ≤ 40) : unarmor c = c.toNat - 48 := by
  rw [unarmor, if_neg (by omega)]

theorem unarmor_high {c : Byte} (h : 40 < c.toNat - 48) : unarmor c = c.toNat - 48 - 8 := by
  rw [unarmor, if_pos h]

/-- The bytes 0x59..0x5F that only de-armoring knows (R16). -/
theorem unarmor_alias : ∀ k < 7, unarmor (BitVec.ofNat 8 (0x59 + k)) = 33 + k := by decide

/-- Settles O57, one branch of a map at a time. -/
theorem armorMapsFollowTheirFormulas : Obligations.ArmorMapsFollowTheirFormulas := by
  refine ⟨fun v hv => ⟨toNat_armor_low, fun h => toNat_armor_high h hv⟩, fun c h h' => ?_, by decide, unarmor_alias⟩
  have payload : isArmor c = true := by simp [isArmor, h, h']
  exact ⟨unarmor_lt c payload, unarmor_low, unarmor_high⟩

end Sys2Proof.Machine
end

section
/-! PROOFS of the state family. First part: what an engine step and a turn of the host can do to the state, and the
invariant (O3, O21 - O23, O40, O41). -/

namespace Sys2Proof.Machine

/-! ### Every engine step, inverted (R17, R33) -/

/-- What answered as the next state of an engine step: the error entry, or the completion after the command's stores. -/
theorem exec_cases {i : Instr} {s t : State} (h : exec i s = .next t) :
    (∃ code info, code ≠ .noError ∧ t = s.raise code info) ∨
    ∃ cb bb n wr r0 r1 r2 r3, StoresOf i s cb bb n wr ∧ t = (s.stored cb bb n wr).complete r0 r1 r2 r3 := by
  obtain ⟨code, info, hcode, e⟩ | ⟨cb, bb, n, wr, r0, r1, r2, r3, stores, e⟩ := exec_ends i s
  · rw [h] at e; cases e; exact .inl ⟨code, info, hcode, rfl⟩
  · rw [h] at e; cases e; exact .inr ⟨cb, bb, n, wr, r0, r1, r2, r3, stores, rfl⟩

/-- The three kinds of stores, and the commands that make them (R110, R140). -/
theorem StoresOf.cases {i : Instr} {s : State} {cb : Memory Byte} {bb : Memory Bool} {n : Nat} {wr : Bool}
    (h : StoresOf i s cb bb n wr) :
    s.NoStore cb bb n wr ∨
    ((i = .rdtxt ∨ i = .armenc) ∧ s.CbufStore cb bb n wr) ∨
    ((i = .wru ∨ i = .wrs ∨ i = .wrtxt ∨ i = .armdec) ∧ s.BbufStore cb bb n wr ∧ (wr = s.wrap ∨ i = .wru ∨ i = .wrs)) := by
  cases i with
  | rdu | rds | parse | cksum | illegal _ => exact .inl h
  | rdtxt => exact .inr (.inl ⟨.inl rfl, h⟩)
  | armenc => exact .inr (.inl ⟨.inr rfl, h⟩)
  | wru => exact .inr (.inr ⟨.inl rfl, h, .inr (.inl rfl)⟩)
  | wrs => exact .inr (.inr ⟨.inr (.inl rfl), h, .inr (.inr rfl)⟩)
  | wrtxt => exact .inr (.inr ⟨.inr (.inr (.inl rfl)), h.1, .inl h.2⟩)
  | armdec => exact .inr (.inr ⟨.inr (.inr (.inr rfl)), h.1, .inl h.2⟩)

theorem exec_done {i : Instr} {s t : State} (h : exec i s = .next t) : t.done = true := by
  obtain ⟨code, info, -, rfl⟩ | ⟨cb, bb, n, wr, r0, r1, r2, r3, -, rfl⟩ := exec_cases h <;> rfl

theorem exec_pending {i : Instr} {s t : State} (h : exec i s = .next t) : t.pending = none := by
  obtain ⟨code, info, -, rfl⟩ | ⟨cb, bb, n, wr, r0, r1, r2, r3, -, rfl⟩ := exec_cases h <;> rfl

theorem exec_keeps {i : Instr} {s t : State} (h : exec i s = .next t) : EngineKeeps s t := by
  obtain ⟨code, info, -, rfl⟩ | ⟨cb, bb, n, wr, r0, r1, r2, r3, -, rfl⟩ := exec_cases h
  · exact (s.raise_spec code info).keeps
  · exact (State.complete_spec (s.stored_keeps cb bb n wr) r0 r1 r2 r3).keeps

/-- Settles O21: neither way a command ends, nor its stores, touch what `EngineKeeps` names. -/
theorem engineLeavesHostRegisters : Obligations.EngineLeavesHostRegisters := fun _ _ _ => exec_keeps

/-- Settles O22: of the three kinds of stores only those of WRU and WRS may change WRAP, and they never clear it. -/
theorem wrapSetOnlyByPacking : Obligations.WrapSetOnlyByPacking := by
  intro i s t h changed
  obtain ⟨code, info, -, rfl⟩ | ⟨cb, bb, n, wr, r0, r1, r2, r3, stores, rfl⟩ := exec_cases h
  · exact absurd rfl changed
  · change wr ≠ s.wrap at changed
    obtain ⟨-, -, -, same⟩ | ⟨-, -, -, -, same⟩ | ⟨-, ⟨-, -, sticky⟩, same | packs⟩ := stores.cases
    · exact absurd same changed
    · exact absurd same changed
    · exact absurd same changed
    · refine ⟨packs, rfl, ?_⟩
      change wr = true
      cases hs : s.wrap with
      | true => exact sticky hs
      | false => simpa [hs] using changed

/-- Settles O23, one clause for each kind of stores. -/
theorem onlyNamedCommandsStore : Obligations.OnlyNamedCommandsStore := by
  intro i s t h
  obtain ⟨code, info, -, rfl⟩ | ⟨cb, bb, n, wr, r0, r1, r2, r3, stores, rfl⟩ := exec_cases h
  · exact ⟨fun _ _ _ => rfl, fun _ => ⟨fun _ _ => rfl, rfl⟩⟩
  · obtain ⟨rfl, rfl, rfl, -⟩ | ⟨named, -, rfl, rfl, -⟩ | ⟨named, ⟨rfl, -, -⟩, -⟩ := stores.cases
    · exact ⟨fun _ _ _ => rfl, fun _ => ⟨fun _ _ => rfl, rfl⟩⟩
    · exact ⟨fun other => by tauto, fun _ => ⟨fun _ _ => rfl, rfl⟩⟩
    · exact ⟨fun _ _ _ => rfl, fun other => by tauto⟩

/-! ### A step is the due command or a turn of the host (R74) -/

/-- What a step did: the engine step of the due command, or a turn of the host. -/
theorem step_cases {s t : State} (h : step s = .next t) :
    (∃ p, s.pending = some p ∧ s.wait = 0 ∧ exec (decode p.word) s = .next t) ∨
    ((s.pending = none ∨ s.wait ≠ 0) ∧ t = s.hostTurn) := by
  cases hp : s.pending with
  | none =>
    rw [step_of_not_due (.inl hp)] at h; cases h
    exact .inr ⟨.inl rfl, rfl⟩
  | some p =>
    by_cases hw : s.wait = 0
    · rw [step_of_due hp hw] at h
      exact .inl ⟨p, rfl, hw, h⟩
    · rw [step_of_not_due (.inr hw)] at h; cases h
      exact .inr ⟨.inr hw, rfl⟩

/-- A turn of the host has begun: the latency has run down by one, and `rest` is what stays on the bus. -/
def State.taken (s : State) (rest : List BusEvent) : State := { s with wait := s.wait - 1, bus := rest }

/-- A turn of the host delivers one event: the idle one, or the first of the bus. -/
theorem State.hostTurn_cases (s : State) :
    ∃ e, s.hostTurn = (s.taken s.bus.tail).deliver e ∧ (e = .idle ∨ s.bus = e :: s.bus.tail) := by
  cases hb : s.bus with
  | nil => exact ⟨.idle, by simp [s.hostTurn_nil hb, State.deliver, State.taken, hb], .inl rfl⟩
  | cons e rest => exact ⟨e, s.hostTurn_cons e rest hb, .inr rfl⟩

theorem State.withFetchWord_word (s : State) (w : Word) :
    s.withFetchWord 32 w.toNat = { s.latchCommand w with wait := 0 } := by
  have whole : BitVec.ofNat 32 (w.toNat % 2 ^ 32) = w := by rw [Nat.mod_eq_of_lt w.isLt, BitVec.ofNat_toNat]; simp
  rw [State.withFetchWord, whole]

/-- Settles O3: the latch a due command is read from is the one an acceptance has written. -/
theorem stepPerformsLatchedCommand : Obligations.StepPerformsLatchedCommand := by
  refine ⟨fun s p hp hw => ?_, fun s h => step_of_not_due h, fun s w => ?_⟩
  · have latched := s.latched_pending hp
    refine ⟨step_of_due hp hw, ?_, ?_, ?_, ?_, ?_⟩
    · rw [State.op0, latched]
    · rw [State.op1, latched]
    · rw [State.op2, latched]
    · rw [State.op0Signed, latched]
    · rw [State.latchedCken, latched]
  · rw [s.withFetchWord_word w]
    have due := step_of_due (s := { s.latchCommand w with wait := 0 }) (s.latchCommand_pending w) rfl
    exact ⟨due, rfl, rfl, rfl, rfl⟩

/-! ### The operations keep the invariant (R25, R28, R29, R31, R32) -/

/-- The stores of a command stay inside the buffers, and leave BLEN inside BBUF. -/
theorem StoresOf.inside {i : Instr} {s : State} {cb : Memory Byte} {bb : Memory Bool} {n : Nat} {wr : Bool}
    (h : StoresOf i s cb bb n wr) (inv : Inv s) :
    cb.wf Config.cbufBytes = true ∧ bb.wf Config.bbufBits = true ∧ n ≤ Config.bbufBits := by
  obtain ⟨rfl, rfl, rfl, -⟩ | ⟨-, ⟨a, bs, fits, rfl⟩, rfl, rfl, -⟩ | ⟨-, ⟨rfl, ⟨j, bs, fits, rfl, le⟩, -⟩, -⟩ := h.cases
  · exact ⟨inv.cbuf, inv.bbuf, inv.blen⟩
  · exact ⟨Memory.wf_storeAll _ _ _ _ fits inv.cbuf, inv.bbuf, inv.blen⟩
  · exact ⟨inv.cbuf, Memory.wf_storeAll _ _ _ _ fits inv.bbuf, le.trans fits⟩

theorem Inv.raise {s : State} (inv : Inv s) {code : ErrCode} (h : code ≠ .noError) (info : Word) :
    Inv (s.raise code info) where
  cbuf := inv.cbuf
  bbuf := inv.bbuf
  blen := inv.blen
  busyClear := fun busy => by cases busy
  errcode := by simp [h]
  latch := fun p hp => by cases hp
  failed := fun _ => ⟨rfl, rfl, rfl, rfl⟩
  errinfo := fun _ ok => by cases ok

theorem Inv.complete {s : State} {cb : Memory Byte} {bb : Memory Bool} {n : Nat} (hcb : cb.wf Config.cbufBytes = true)
    (hbb : bb.wf Config.bbufBits = true) (hn : n ≤ Config.bbufBits) (wr : Bool) (r0 r1 r2 r3 : Word) :
    Inv ((s.stored cb bb n wr).complete r0 r1 r2 r3) where
  cbuf := hcb
  bbuf := hbb
  blen := hn
  busyClear := fun busy => by cases busy
  errcode := by simp
  latch := fun p hp => by cases hp
  failed := fun err => by cases err
  errinfo := fun _ _ => rfl

/-- Every command keeps the invariant. -/
theorem Inv.exec {i : Instr} {s t : State} (inv : Inv s) (h : exec i s = .next t) : Inv t := by
  obtain ⟨code, info, hcode, rfl⟩ | ⟨cb, bb, n, wr, r0, r1, r2, r3, stores, rfl⟩ := exec_cases h
  · exact inv.raise hcode info
  · obtain ⟨hcb, hbb, hn⟩ := stores.inside inv
    exact Inv.complete hcb hbb hn wr r0 r1 r2 r3

/-- The invariant does not speak of WRAP, OVR or the environment. -/
theorem Inv.environment {s : State} (inv : Inv s) (wrap ovr : Bool) (wait : Nat) (latencies : List Nat) (draws : Nat)
    (bus : List BusEvent) (response : Option BusResponse) :
    Inv { s with wrap := wrap, ovr := ovr, wait := wait, latencies := latencies, draws := draws, bus := bus,
                 response := response } :=
  ⟨inv.cbuf, inv.bbuf, inv.blen, inv.busyClear, inv.errcode, inv.latch, inv.failed, inv.errinfo⟩

theorem Inv.respond {s : State} (inv : Inv s) (r : BusResponse) : Inv (s.respond r) := inv.environment _ _ _ _ _ _ _

/-- Clearing DONE keeps the invariant, also while a command is pending (R26). -/
theorem Inv.writeStatus {s : State} (inv : Inv s) (w : Word) : Inv (s.writeStatus w) where
  cbuf := inv.cbuf
  bbuf := inv.bbuf
  blen := inv.blen
  busyClear := fun busy => ⟨by simp [(inv.busyClear busy).1], (inv.busyClear busy).2⟩
  errcode := inv.errcode
  latch := inv.latch
  failed := inv.failed
  errinfo := inv.errinfo

/-- The latch is taken from the registers it is compared with (R32). -/
theorem Inv.latchCommand {s : State} (inv : Inv s) (w : Word) : Inv (s.latchCommand w) where
  cbuf := inv.cbuf
  bbuf := inv.bbuf
  blen := inv.blen
  busyClear := fun _ => ⟨rfl, rfl⟩
  errcode := by simp
  latch := fun p hp => by cases hp; rfl
  failed := fun err => by cases err
  errinfo := fun idle => by cases idle

theorem Inv.accept {s : State} (inv : Inv s) (w : Word) : Inv (s.accept w) := by
  obtain ⟨_, _, _, h⟩ := (s.latchCommand w).drawLatency_cases
  rw [State.accept, h]
  exact (inv.latchCommand w).environment _ _ _ _ _ _ _

/-- While idle the host may set CTRL, the operands, and BLEN and the buffers within their sizes: no latch is held that
could differ from them. -/
theorem Inv.idleUpdate {s : State} (inv : Inv s) (idle : s.pending = none) (cken ie : Bool) (arg0 arg1 arg2 : Word)
    {blen : Nat} {cbuf : Memory Byte} {bbuf : Memory Bool} (hblen : blen ≤ Config.bbufBits)
    (hcbuf : cbuf.wf Config.cbufBytes = true) (hbbuf : bbuf.wf Config.bbufBits = true) :
    Inv { s with cken := cken, ie := ie, arg0 := arg0, arg1 := arg1, arg2 := arg2, blen := blen, cbuf := cbuf,
                 bbuf := bbuf } where
  cbuf := hcbuf
  bbuf := hbbuf
  blen := hblen
  busyClear := inv.busyClear
  errcode := inv.errcode
  latch := fun p hp => by rw [idle] at hp; cases hp
  failed := inv.failed
  errinfo := inv.errinfo

theorem Inv.writeIdle {s : State} (inv : Inv s) (idle : s.pending = none) (off : BitVec 12) (w : Word) :
    Inv (s.writeIdle (locate off) w) := by
  have update := inv.idleUpdate idle
  cases l : locate off with
  | ctrl => exact update _ _ _ _ _ inv.blen inv.cbuf inv.bbuf
  | status => exact inv.writeStatus w
  | cmd => exact inv.accept w
  | blen => exact update _ _ _ _ _ (Nat.min_le_right _ _) inv.cbuf inv.bbuf
  | arg0 | arg1 | arg2 => exact update _ _ _ _ _ inv.blen inv.cbuf inv.bbuf
  | cbufWord k =>
    refine update _ _ _ _ _ inv.blen (Memory.wf_storeAll _ _ _ _ ?_ inv.cbuf) inv.bbuf
    simpa using (locate_window_lt off k).1 l
  | bbufWord k =>
    refine update _ _ _ _ _ inv.blen inv.cbuf (Memory.wf_storeAll _ _ _ _ ?_ inv.bbuf)
    simpa using (locate_window_lt off k).2 l
  | id | version | cfg | errinfo | res0 | res1 | res2 | res3 | reserved => exact inv

theorem Inv.writeBusy {s : State} (inv : Inv s) (l : Location) (w : Word) : Inv (s.writeBusy l w) := by
  obtain ⟨-, h⟩ | ⟨-, h⟩ := s.writeBusy_cases l w
  · rw [h]; exact inv.writeStatus w
  · rw [h]; exact inv.environment _ _ _ _ _ _ _

/-- Settles O40, clause by clause: the reset state is idle, without error and with both buffers unwritten. -/
theorem resetMeetsInvariant : Obligations.ResetMeetsInvariant where
  cbuf := Memory.wf_nil _
  bbuf := Memory.wf_nil _
  blen := Nat.zero_le _
  busyClear := fun busy => by cases busy
  errcode := ⟨fun _ => rfl, fun _ => rfl⟩
  latch := fun p hp => by cases hp
  failed := fun err => by cases err
  errinfo := fun _ _ => rfl

theorem Inv.applyReset (s : State) : Inv s.applyReset :=
  have h : Inv State.reset := resetMeetsInvariant
  ⟨h.cbuf, h.bbuf, h.blen, h.busyClear, h.errcode, h.latch, h.failed, h.errinfo⟩

theorem Inv.hostWrite {s : State} (inv : Inv s) (off : BitVec 12) (lanes : BitVec 4) (w : Word) :
    Inv (s.hostWrite off lanes w) := by
  obtain ⟨-, h⟩ | ⟨-, -, h⟩ | ⟨-, idle, h⟩ := s.hostWrite_cases off lanes w
  · rw [h]; exact inv.respond _
  · rw [h]; exact (inv.writeBusy _ w).respond _
  · have noLatch : s.pending = none := by simpa [State.busy] using idle
    rw [h]; exact (inv.writeIdle noLatch off w).respond _

theorem Inv.deliver {s : State} (inv : Inv s) (e : BusEvent) : Inv (s.deliver e) := by
  cases e with
  | idle => exact inv
  | read off lanes =>
    obtain ⟨d, r, h⟩ := s.hostRead_cases off lanes
    rw [State.deliver, h]
    exact inv.environment _ _ _ _ _ _ _
  | write off lanes w => exact inv.hostWrite off lanes w
  | reset => exact Inv.applyReset s

theorem Inv.hostTurn {s : State} (inv : Inv s) : Inv s.hostTurn := by
  obtain ⟨e, turn, -⟩ := s.hostTurn_cases
  rw [turn]
  exact Inv.deliver (inv.environment _ _ _ _ _ _ _) e

/-- Settles O41: an engine step and a turn of the host both keep the invariant. -/
theorem stepKeepsInvariant : Obligations.StepKeepsInvariant := by
  intro s t inv h
  obtain ⟨p, -, -, ran⟩ | ⟨-, rfl⟩ := step_cases h
  · exact inv.exec ran
  · exact inv.hostTurn

end Sys2Proof.Machine
end

section
/-! PROOFS of the state family. Second part: bits at or past BLEN have no effect on any command (O50, R37). -/

namespace Sys2Proof.Machine

theorem State.field_fits (s : State) {i L : Nat} (inside : s.pastBlen i L = false) : i + L ≤ s.blen := by
  simpa [State.pastBlen] using inside

/-! ### States that agree but for the bits at or past BLEN -/

/-- `t` is `s` but for bits of BBUF at or past BLEN. -/
def AgreeBelowBlen (s t : State) : Prop := ∃ bb, t = { s with bbuf := bb } ∧ ∀ k < s.blen, t.bit k = s.bit k

/-- Both results are next states, and these agree below BLEN. -/
def ResultsAgree (r r' : Result) : Prop := ∃ t u, r = .next t ∧ r' = .next u ∧ AgreeBelowBlen t u

theorem ResultsAgree.next {t u : State} (h : AgreeBelowBlen t u) : ResultsAgree (.next t) (.next u) :=
  ⟨t, u, rfl, rfl, h⟩

/-- Two checks that ask the same answer the same. -/
theorem ResultsAgree.ite {c : Bool} {r₁ r₂ r₁' r₂' : Result} (h₁ : c = true → ResultsAgree r₁ r₁')
    (h₂ : c = false → ResultsAgree r₂ r₂') :
    ResultsAgree (if c = true then r₁ else r₂) (if c = true then r₁' else r₂') := by
  cases c with
  | true => exact h₁ rfl
  | false => exact h₂ rfl

namespace AgreeBelowBlen

variable {s t : State} (h : AgreeBelowBlen s t)
include h

/-! ### What the two states have in common -/

theorem op0_eq : t.op0 = s.op0 := by obtain ⟨bb, rfl, -⟩ := h; rfl
theorem op1_eq : t.op1 = s.op1 := by obtain ⟨bb, rfl, -⟩ := h; rfl
theorem op2_eq : t.op2 = s.op2 := by obtain ⟨bb, rfl, -⟩ := h; rfl
theorem op0Signed_eq : t.op0Signed = s.op0Signed := by obtain ⟨bb, rfl, -⟩ := h; rfl
theorem latchedCken_eq : t.latchedCken = s.latchedCken := by obtain ⟨bb, rfl, -⟩ := h; rfl
theorem blen_eq : t.blen = s.blen := by obtain ⟨bb, rfl, -⟩ := h; rfl
theorem pastBlen_eq (i L : Nat) : t.pastBlen i L = s.pastBlen i L := by obtain ⟨bb, rfl, -⟩ := h; rfl
theorem textGroups_eq (i n : Nat) : t.textGroups i n = s.textGroups i n := by obtain ⟨bb, rfl, -⟩ := h; rfl
theorem readBytes_eq (a n : Nat) : t.readBytes a n = s.readBytes a n := by obtain ⟨bb, rfl, -⟩ := h; rfl
theorem paddedText_eq (a m n : Nat) : t.paddedText a m n = s.paddedText a m n := by obtain ⟨bb, rfl, -⟩ := h; rfl

/-! ### The shared operations keep the agreement -/

theorem raise (code : ErrCode) (info : Word) : AgreeBelowBlen (s.raise code info) (t.raise code info) := by
  obtain ⟨bb, rfl, agree⟩ := h
  exact ⟨bb, rfl, agree⟩

theorem complete (r0 r1 r2 r3 : Word) : AgreeBelowBlen (s.complete r0 r1 r2 r3) (t.complete r0 r1 r2 r3) := by
  obtain ⟨bb, rfl, agree⟩ := h
  exact ⟨bb, rfl, agree⟩

theorem setWrapIf (lost : Bool) : AgreeBelowBlen (s.setWrapIf lost) (t.setWrapIf lost) := by
  obtain ⟨bb, rfl, agree⟩ := h
  exact ⟨bb, rfl, agree⟩

theorem writeBytes (a : Nat) (bs : List Byte) : AgreeBelowBlen (s.writeBytes a bs) (t.writeBytes a bs) := by
  obtain ⟨bb, rfl, agree⟩ := h
  exact ⟨bb, rfl, agree⟩

/-- Writing bits and setting BLEN keeps the agreement where every bit below the new BLEN was already below the old one or
is among the written ones. -/
theorem writeBits_setBlen (i : Nat) (bs : List Bool) (n : Nat) (hi : i ≤ s.blen) (hn : n ≤ i + bs.length) :
    AgreeBelowBlen ((s.writeBits i bs).setBlen n) ((t.writeBits i bs).setBlen n) := by
  obtain ⟨bb, rfl, agree⟩ := h
  refine ⟨bb.storeAll i bs, rfl, fun k hk => ?_⟩
  simp only [State.setBlen_blen] at hk
  simp only [State.bit_setBlen]
  by_cases below : k < i
  · rw [State.bit_writeBits_outside _ _ _ _ (.inl below), State.bit_writeBits_outside _ _ _ _ (.inl below)]
    exact agree k (by omega)
  · obtain ⟨j, rfl⟩ : ∃ j, k = i + j := ⟨k - i, by omega⟩
    rw [State.bit_writeBits _ _ _ _ (by omega), State.bit_writeBits _ _ _ _ (by omega)]

theorem append (x : List Bool) : AgreeBelowBlen (s.append x) (t.append x) := by
  rw [State.append, State.append, h.blen_eq]
  exact h.writeBits_setBlen s.blen x (s.blen + x.length) (Nat.le_refl _) (Nat.le_refl _)

/-! ### What a command reads of the bit string -/

/-- A field inside the bit string reads the same. -/
theorem readBits_eq {i L : Nat} (fits : i + L ≤ s.blen) : t.readBits i L = s.readBits i L := by
  obtain ⟨bb, rfl, agree⟩ := h
  refine List.map_congr_left fun k hk => agree _ ?_
  have := List.mem_range.mp hk
  omega

theorem ufield_eq {i L : Nat} (fits : i + L ≤ s.blen) : t.ufield i L = s.ufield i L := by
  rw [State.ufield, State.ufield, h.readBits_eq fits]

theorem sfield_eq {i L : Nat} (fits : i + L ≤ s.blen) : t.sfield i L = s.sfield i L := by
  rw [State.sfield, State.sfield, h.readBits_eq fits]

/-- RDTXT decodes whole groups of the bit string only (R114). -/
theorem rawText_eq (i n : Nat) : t.rawText i (s.textGroups i n) = s.rawText i (s.textGroups i n) := by
  refine List.map_congr_left fun k hk => congrArg chr6 (h.ufield_eq ?_)
  have inGroups := List.mem_range.mp hk
  unfold State.textGroups at inGroups
  split at inGroups <;> omega

/-- ARMENC reads no bit at or past the end of its field (R150). -/
theorem armorText_eq {i L : Nat} (c : Nat) (fits : i + L ≤ s.blen) : t.armorText i L c = s.armorText i L c := by
  obtain ⟨bb, rfl, agree⟩ := h
  refine List.map_congr_left fun k _ => congrArg (armor ∘ natOfBits) (List.map_congr_left fun j _ => ?_)
  split
  · exact agree _ (by omega)
  · rfl

/-! ### The commands, one by one -/

theorem rdu : ResultsAgree (execRdu s) (execRdu t) := by
  simp only [execRdu, h.op0_eq, h.op1_eq, h.pastBlen_eq]
  refine .ite (fun _ => .next (h.raise _ _)) fun _ => .ite (fun _ => .next (h.raise _ _)) fun inside => ?_
  rw [h.ufield_eq (s.field_fits inside)]
  exact .next (h.complete _ _ _ _)

theorem rds : ResultsAgree (execRds s) (execRds t) := by
  simp only [execRds, h.op0_eq, h.op1_eq, h.pastBlen_eq]
  refine .ite (fun _ => .next (h.raise _ _)) fun _ => .ite (fun _ => .next (h.raise _ _)) fun inside => ?_
  rw [h.sfield_eq (s.field_fits inside)]
  exact .next (h.complete _ _ _ _)

theorem rdtxt : ResultsAgree (execRdtxt s) (execRdtxt t) := by
  simp only [execRdtxt, h.op0_eq, h.op1_eq, h.op2_eq, h.textGroups_eq, h.rawText_eq]
  exact .ite (fun _ => .next (h.raise _ _)) fun _ => .next ((h.writeBytes _ _).complete _ _ _ _)

theorem pack (L w : Nat) (lost : Bool) : AgreeBelowBlen (s.pack L w lost) (t.pack L w lost) := by
  rw [State.pack, State.pack, h.blen_eq]
  exact ((h.setWrapIf lost).append _).complete _ _ _ _

theorem wru : ResultsAgree (execWru s) (execWru t) := by
  simp only [execWru, h.op0_eq, h.op1_eq, h.blen_eq]
  exact .ite (fun _ => .next (h.raise _ _)) fun _ => .ite (fun _ => .next (h.raise _ _)) fun _ => .next (h.pack _ _ _)

theorem wrs : ResultsAgree (execWrs s) (execWrs t) := by
  simp only [execWrs, h.op0Signed_eq, h.op1_eq, h.blen_eq]
  exact .ite (fun _ => .next (h.raise _ _)) fun _ => .ite (fun _ => .next (h.raise _ _)) fun _ => .next (h.pack _ _ _)

theorem wrtxt : ResultsAgree (execWrtxt s) (execWrtxt t) := by
  simp only [execWrtxt, h.op0_eq, h.op1_eq, h.op2_eq, h.blen_eq, h.paddedText_eq]
  exact .ite (fun _ => .next (h.raise _ _)) fun _ => .ite (fun _ => .next (h.raise _ _)) fun _ =>
    .next ((h.append _).complete _ _ _ _)

/-- ARMDEC writes every bit below the BLEN it sets, the dropped fill bits lying past it (R141). -/
theorem armdec : ResultsAgree (execArmdec s) (execArmdec t) := by
  simp only [execArmdec, h.op0_eq, h.op1_eq, h.op2_eq, h.readBytes_eq]
  refine .ite (fun _ => .next (h.raise _ _)) fun _ => .ite (fun _ => .next (h.raise _ _)) fun _ => ?_
  split
  · exact .next (h.raise _ _)
  · cases firstBadArmor 0 (s.readBytes s.op0 s.op1) with
    | some bad => exact .next (h.raise _ _)
    | none =>
      refine .next ((h.writeBits_setBlen 0 _ _ (Nat.zero_le _) ?_).complete _ _ _ _)
      rw [length_flatMap_bits, State.length_readBytes]
      omega

theorem armenc : ResultsAgree (execArmenc s) (execArmenc t) := by
  simp only [execArmenc, h.op0_eq, h.op1_eq, h.op2_eq, h.pastBlen_eq]
  refine .ite (fun _ => .next (h.raise _ _)) fun _ => .ite (fun _ => .next (h.raise _ _)) fun inside => ?_
  rw [h.armorText_eq _ (s.field_fits inside)]
  exact .next ((h.writeBytes _ _).complete _ _ _ _)

theorem parse : ResultsAgree (execParse s) (execParse t) := by
  simp only [execParse, h.op0_eq, h.op1_eq, h.latchedCken_eq, h.readBytes_eq]
  refine .ite (fun _ => .next (h.raise _ _)) fun _ => ?_
  cases parseLine (s.readBytes s.op0 s.op1) with
  | error i => exact .next (h.complete _ _ _ _)
  | ok e => exact .next (h.complete _ _ _ _)

theorem cksum : ResultsAgree (execCksum s) (execCksum t) := by
  simp only [execCksum, h.op0_eq, h.op1_eq, h.readBytes_eq]
  exact .ite (fun _ => .next (h.raise _ _)) fun _ => .next (h.complete _ _ _ _)

theorem exec (i : Instr) : ResultsAgree (exec i s) (exec i t) := by
  cases i with
  | rdu => exact h.rdu
  | rds => exact h.rds
  | rdtxt => exact h.rdtxt
  | wru => exact h.wru
  | wrs => exact h.wrs
  | wrtxt => exact h.wrtxt
  | armdec => exact h.armdec
  | armenc => exact h.armenc
  | parse => exact h.parse
  | cksum => exact h.cksum
  | illegal w => exact .next (h.raise _ _)

end AgreeBelowBlen

/-- Settles O50: every command answers alike in two states that agree below BLEN. -/
theorem bitsPastBlenAreNotRead : Obligations.BitsPastBlenAreNotRead := by
  intro i s t u bb agree ht hu
  have start : AgreeBelowBlen s { s with bbuf := bb } := ⟨bb, rfl, agree⟩
  obtain ⟨t', u', ht', hu', bb', rfl, agree'⟩ := start.exec i
  rw [ht] at ht'; cases ht'
  rw [hu] at hu'; cases hu'
  exact ⟨rfl, agree'⟩

end Sys2Proof.Machine
end

section
/-! PROOFS of the state family. Third part: one access of the host, and which events set OVR and DONE or clear BUSY
(O18, O26, O27, O32, O33, O35 - O37, O42, O43). -/

namespace Sys2Proof.Machine

/-! ### One supported access (R60 - R63) -/

theorem supported_of_aligned {off : BitVec 12} (h : off.toNat % 4 = 0) : supported off 0xF = true := by
  simp [supported, h]

theorem supported_iff {off : BitVec 12} {lanes : BitVec 4} :
    supported off lanes = true ↔ off.toNat % 4 = 0 ∧ lanes = 0xF := by
  simp [supported]

theorem State.busy_eq_false {s : State} : s.busy = false ↔ s.pending = none := by simp [State.busy]

/-- A step in which the engine is not due delivers the next event of the bus. -/
theorem step_event {s : State} {e : BusEvent} {rest : List BusEvent} (h : s.pending = none ∨ s.wait ≠ 0)
    (hb : s.bus = e :: rest) : step s = .next ((s.taken rest).deliver e) := by
  rw [step_of_not_due h, s.hostTurn_cons e rest hb]; rfl

/-- An aligned full write while idle. -/
theorem step_writeIdle {s : State} {off : BitVec 12} {l : Location} {w : Word} {rest : List BusEvent}
    (idle : s.pending = none) (aligned : off.toNat % 4 = 0) (hl : locate off = l)
    (hb : s.bus = .write off 0xF w :: rest) :
    step s = .next (((s.taken rest).writeIdle l w).respond { status := .okay, data := none }) := by
  have notBusy : (s.taken rest).busy = false := State.busy_eq_false.mpr idle
  rw [step_event (.inl idle) hb, State.deliver, State.hostWrite, supported_of_aligned aligned, notBusy, hl]
  rfl

/-- A write to STATUS acts alike idle and busy (R26, R62). -/
theorem step_writeStatus {s : State} {w : Word} {rest : List BusEvent} (h : s.pending = none ∨ s.wait ≠ 0)
    (hb : s.bus = .write 0x010 0xF w :: rest) :
    step s = .next (((s.taken rest).writeStatus w).respond { status := .okay, data := none }) := by
  rw [step_event h hb, State.deliver, State.hostWrite, supported_of_aligned (by decide)]
  cases (s.taken rest).busy <;> rfl

/-- An aligned full read of a location that is not hidden returns its value (R60, R63). -/
theorem step_read {s : State} {off : BitVec 12} {l : Location} {rest : List BusEvent}
    (h : s.pending = none ∨ s.wait ≠ 0) (aligned : off.toNat % 4 = 0) (hl : locate off = l)
    (current : s.pending = none ∨ l.hiddenWhileBusy = false) (hb : s.bus = .read off 0xF :: rest) :
    step s = .next ((s.taken rest).respond { status := .okay, data := some (s.valueAt l) }) := by
  have shown : ((s.taken rest).busy && l.hiddenWhileBusy) = false := by
    rcases current with idle | visible
    · have notBusy : (s.taken rest).busy = false := State.busy_eq_false.mpr idle
      rw [notBusy, Bool.false_and]
    · rw [visible, Bool.and_false]
  have value : (s.taken rest).valueAt l = s.valueAt l := by cases l <;> rfl
  rw [step_event h hb, State.deliver, State.hostRead, supported_of_aligned aligned, hl, shown, value]
  rfl

/-- An accepted command: the latch, and a latency that leaves every register alone (R7, R32). -/
theorem step_writeCmd {s : State} {w : Word} {rest : List BusEvent} (idle : s.pending = none)
    (hb : s.bus = .write 0x014 0xF w :: rest) :
    ∃ wait draws latencies, step s = .next { s.latchCommand w with
      wait := wait, draws := draws, latencies := latencies, bus := rest
      response := some { status := .okay, data := none } } := by
  obtain ⟨wait, draws, latencies, h⟩ := ((s.taken rest).latchCommand w).drawLatency_cases
  refine ⟨wait, draws, latencies, ?_⟩
  rw [step_writeIdle idle (by decide) locate_cmd hb, State.writeIdle, State.accept, h]
  rfl

/-! ### Writes to the registers (R24 - R28, R30) -/

/-- Settles O26: the flags a write clears, in the form of R26. -/
theorem statusWriteClearsFlags : Obligations.StatusWriteClearsFlags := by
  intro s w rest h hb
  have cleared (flag bit : Bool) : (flag && !bit) = if bit = true then false else flag := by cases bit <;> simp
  exact ⟨_, step_writeStatus h hb, cleared _ _, cleared _ _, cleared _ _, rfl⟩

/-- Settles O35: each write is the update of its location. -/
theorem hostWritesOneRegister : Obligations.HostWritesOneRegister := fun _ _ _ idle =>
  ⟨step_writeIdle idle (by decide) locate_ctrl, step_writeIdle idle (by decide) locate_blen,
    step_writeIdle idle (by decide) locate_arg0, step_writeIdle idle (by decide) locate_arg1,
    step_writeIdle idle (by decide) locate_arg2⟩

/-- Settles O36: the locations of these offsets take no write. -/
theorem readOnlyRegistersKeep : Obligations.ReadOnlyRegistersKeep := by
  intro s off w rest idle hoff hb
  have readOnly : off.toNat % 4 = 0 ∧ (s.taken rest).writeIdle (locate off) w = s.taken rest := by
    simp only [List.mem_cons, List.not_mem_nil, or_false] at hoff
    rcases hoff with rfl | rfl | rfl | rfl | rfl | rfl | rfl | rfl <;> exact ⟨by decide, rfl⟩
  obtain ⟨aligned, kept⟩ := readOnly
  rw [step_writeIdle idle aligned rfl hb, kept]
  rfl

/-! ### STATUS as a number (R25, R200) -/

theorem extractLsb'_of_toNat {v : Word} {start len x : Nat} (h : v.toNat / 2 ^ start % 2 ^ len = x) :
    v.extractLsb' start len = BitVec.ofNat len x := by
  apply BitVec.eq_of_toNat_eq
  rw [BitVec.extractLsb'_toNat, Nat.shiftRight_eq_div_pow, BitVec.toNat_ofNat, ← h, Nat.mod_mod]

theorem getLsbD_of_toNat {v : Word} {i : Nat} {b : Bool} (h : v.toNat / 2 ^ i % 2 = b.toNat) : v.getLsbD i = b := by
  rw [BitVec.getLsbD, Nat.testBit_eq_decide_div_mod_eq, h]
  cases b <;> rfl

theorem ErrCode.number_lt (c : ErrCode) : c.number < 8 := by cases c <;> decide

/-- STATUS as the host reads it, field by field (R25). -/
structure StatusFields (s : State) (v : Word) : Prop where
  busy : v.getLsbD 0 = s.busy
  done : v.getLsbD 1 = s.done
  err : v.getLsbD 2 = s.err
  wrap : v.getLsbD 3 = s.wrap
  errcode : v.extractLsb' 4 4 = BitVec.ofNat 4 s.errcode.number
  ovr : v.getLsbD 8 = s.ovr
  rest : v.extractLsb' 9 23 = 0

theorem State.statusWord_fields (s : State) : StatusFields s s.statusWord := by
  have busy := s.busy.toNat_le
  have done := s.done.toNat_le
  have err := s.err.toNat_le
  have wrap := s.wrap.toNat_le
  have ovr := s.ovr.toNat_le
  have code := s.errcode.number_lt
  have sum : s.statusWord.toNat = s.busy.toNat + s.done.toNat * 2 + s.err.toNat * 4 + s.wrap.toNat * 8
      + s.errcode.number * 16 + s.ovr.toNat * 256 := by
    rw [State.statusWord, BitVec.toNat_ofNat, Nat.mod_eq_of_lt (by omega)]
  exact {
    busy := getLsbD_of_toNat (by omega)
    done := getLsbD_of_toNat (by omega)
    err := getLsbD_of_toNat (by omega)
    wrap := getLsbD_of_toNat (by omega)
    errcode := extractLsb'_of_toNat (by omega)
    ovr := getLsbD_of_toNat (by omega)
    rest := extractLsb'_of_toNat (x := 0) (by omega) }

/-- Settles O33: STATUS is not hidden while busy, and its word holds the fields of R25. -/
theorem statusReadLayout : Obligations.StatusReadLayout := by
  intro s rest h hb
  have fields := s.statusWord_fields
  refine ⟨_, s.statusWord, step_read h (by decide) locate_status (.inr rfl) hb, rfl, fields.busy, fields.done,
    fields.err, fields.wrap, fields.ovr, fields.rest, ?_⟩
  rw [fields.errcode]
  cases s.errcode <;> rfl

/-- Settles O27: the acceptance of R32, and BUSY as the host reads it. -/
theorem cmdWriteAcceptsCommand : Obligations.CmdWriteAcceptsCommand := by
  intro s w rest idle hb
  obtain ⟨wait, draws, latencies, h⟩ := step_writeCmd idle hb
  exact ⟨_, h, rfl, rfl, (State.statusWord_fields _).busy, rfl, rfl, rfl, rfl⟩

theorem State.ctrlWord_eq (s : State) : s.ctrlWord = BitVec.ofNat 32 (s.cken.toNat + 2 * s.ie.toNat) := by
  rw [State.ctrlWord, Nat.mul_comm]

/-- Settles O32: each pair of the list is an aligned offset and the value of its location. -/
theorem registerMapReads : Obligations.RegisterMapReads := by
  intro s off rest idle hb v hv
  have located : off.toNat % 4 = 0 ∧ s.valueAt (locate off) = v := by
    simp only [List.mem_cons, List.not_mem_nil, or_false, Prod.mk.injEq] at hv
    rcases hv with ⟨rfl, rfl⟩ | ⟨rfl, rfl⟩ | ⟨rfl, rfl⟩ | ⟨rfl, rfl⟩ | ⟨rfl, rfl⟩ | ⟨rfl, rfl⟩ | ⟨rfl, rfl⟩ | ⟨rfl, rfl⟩
      | ⟨rfl, rfl⟩ | ⟨rfl, rfl⟩ | ⟨rfl, rfl⟩ | ⟨rfl, rfl⟩ | ⟨rfl, rfl⟩ | ⟨rfl, rfl⟩
    case inr.inr.inr.inl => exact ⟨by decide, s.ctrlWord_eq⟩
    all_goals exact ⟨by decide, rfl⟩
  obtain ⟨aligned, rfl⟩ := located
  exact ⟨_, step_read (.inl idle) aligned rfl (.inl idle) hb, rfl⟩

/-! ### Acceptance, completion and irq (R32, R33, R95, R210) -/

theorem decode_of_not_assigned {w : Word} (h : w ∉ assignedWords) : decode w = .illegal w := by
  simp only [assignedWords, List.mem_cons, List.not_mem_nil, or_false, not_or] at h
  simp only [decode, h, if_false]

/-- A due word that is none of the ten ends with error ILLEGAL (R95). -/
theorem step_illegal {s : State} {p : Pending} (hp : s.pending = some p) (hw : s.wait = 0)
    (other : p.word ∉ assignedWords) : step s = .next (s.raise .illegal p.word) := by
  rw [step_of_due hp hw, decode_of_not_assigned other]
  rfl

theorem State.drawLatency_cons {s : State} {n : Nat} {later : List Nat} (h : s.latencies = n :: later) :
    s.drawLatency = { s with wait := n, latencies := later } := by
  rw [State.drawLatency, h]

/-- Settles O18: the word is latched with the one latency the environment fixes, and then due. -/
theorem illegalCommandFails : Obligations.IllegalCommandFails := by
  refine ⟨fun w s => ⟨_, rfl, s.raise_spec .illegal w⟩, fun w s rest other idle hb hlat => ?_⟩
  have accepted := step_writeIdle idle (by decide) locate_cmd hb
  rw [State.writeIdle, State.accept, State.drawLatency_cons (s := (s.taken rest).latchCommand w) hlat] at accepted
  exact ⟨_, _, accepted, step_illegal ((s.taken rest).latchCommand_pending w) rfl other, rfl, rfl, rfl, rfl, rfl,
    fun _ _ => rfl, fun _ _ => rfl⟩

/-- Settles O37: irq follows DONE and IE through a command's end, its acceptance, and the two register writes. -/
theorem irqFollowsDoneAndIe : Obligations.IrqFollowsDoneAndIe := by
  refine ⟨rfl, fun s => by simp [State.irq], fun i s t h => ?_, fun s w rest => ⟨fun idle hb => ?_, fun h hb => ?_,
    fun idle hb => ?_⟩⟩
  · rw [State.irq, exec_done h, (exec_keeps h).ie, Bool.true_and]
  · obtain ⟨wait, draws, latencies, h⟩ := step_writeCmd idle hb
    exact ⟨_, h, rfl⟩
  · exact ⟨_, step_writeStatus h hb, Bool.and_right_comm _ _ _⟩
  · exact ⟨_, step_writeIdle idle (by decide) locate_ctrl hb, rfl⟩

/-! ### Which events set OVR and DONE, and clear BUSY (R25, R62, R75, R232) -/

/-- An idle block's write sets neither DONE nor OVR. -/
theorem State.writeIdle_flags (s : State) (l : Location) (w : Word) :
    ((s.writeIdle l w).done = true → s.done = true) ∧ ((s.writeIdle l w).ovr = true → s.ovr = true) := by
  cases l with
  | status => exact ⟨fun rise => (Bool.and_eq_true_iff.mp rise).1, fun rise => (Bool.and_eq_true_iff.mp rise).1⟩
  | cmd =>
    obtain ⟨_, _, _, h⟩ := (s.latchCommand w).drawLatency_cases
    rw [State.writeIdle, State.accept, h]
    exact ⟨fun rise => (Bool.false_ne_true rise).elim, id⟩
  | cbufWord k => rw [State.writeIdle, State.writeCbufWord, State.writeBytes_done, State.writeBytes_ovr]; exact ⟨id, id⟩
  | bbufWord k => rw [State.writeIdle, State.writeBbufWord, State.writeBits_done, State.writeBits_ovr]; exact ⟨id, id⟩
  | blen => rw [State.writeIdle, State.setBlen_done, State.setBlen_ovr]; exact ⟨id, id⟩
  | id | version | cfg | ctrl | errinfo | arg0 | arg1 | arg2 | res0 | res1 | res2 | res3 | reserved => exact ⟨id, id⟩

/-- No event of the host sets DONE. -/
theorem State.deliver_done (s : State) (e : BusEvent) (h : (s.deliver e).done = true) : s.done = true := by
  cases e with
  | idle => exact h
  | read off lanes =>
    obtain ⟨d, r, e⟩ := s.hostRead_cases off lanes
    rw [State.deliver, e] at h; exact h
  | write off lanes w =>
    rw [State.deliver] at h
    obtain ⟨-, e⟩ | ⟨-, -, e⟩ | ⟨-, -, e⟩ := s.hostWrite_cases off lanes w
    · rw [e] at h; exact h
    · rw [e] at h
      obtain ⟨-, e⟩ | ⟨-, e⟩ := s.writeBusy_cases (locate off) w
      · rw [e] at h; exact (Bool.and_eq_true_iff.mp h).1
      · rw [e] at h; exact h
    · rw [e] at h; exact (s.writeIdle_flags (locate off) w).1 h
  | reset => cases h

/-- The one event that sets OVR: a supported write, not to STATUS, while a command is pending. -/
theorem State.deliver_ovr (s : State) (e : BusEvent) (before : s.ovr = false) (h : (s.deliver e).ovr = true) :
    ∃ off w, e = .write off 0xF w ∧ off.toNat % 4 = 0 ∧ s.busy = true ∧ locate off ≠ .status := by
  have noRise : s.ovr ≠ true := by simp [before]
  cases e with
  | idle => exact absurd h noRise
  | read off lanes =>
    obtain ⟨d, r, e⟩ := s.hostRead_cases off lanes
    rw [State.deliver, e] at h; exact absurd h noRise
  | write off lanes w =>
    rw [State.deliver] at h
    obtain ⟨-, e⟩ | ⟨full, busy, e⟩ | ⟨-, -, e⟩ := s.hostWrite_cases off lanes w
    · rw [e] at h; exact absurd h noRise
    · rw [e] at h
      obtain ⟨-, e⟩ | ⟨other, -⟩ := s.writeBusy_cases (locate off) w
      · rw [e] at h; exact absurd (Bool.and_eq_true_iff.mp h).1 noRise
      · obtain ⟨aligned, rfl⟩ := supported_iff.mp full
        exact ⟨off, w, rfl, aligned, busy, other⟩
    · rw [e] at h; exact absurd ((s.writeIdle_flags (locate off) w).2 h) noRise
  | reset => cases h

/-- Settles O42: the engine keeps OVR, and of the host's events only a dropped write sets it. -/
theorem ovrSetOnlyByDroppedWrite : Obligations.OvrSetOnlyByDroppedWrite := by
  intro s t h before after
  obtain ⟨p, -, -, ran⟩ | ⟨-, rfl⟩ := step_cases h
  · rw [(exec_keeps ran).ovr, before] at after; cases after
  · obtain ⟨e, turn, next⟩ := s.hostTurn_cases
    rw [turn] at after
    obtain ⟨off, w, rfl, aligned, busy, notStatus⟩ := State.deliver_ovr (s.taken _) e before after
    obtain ⟨p, hp⟩ := Option.isSome_iff_exists.mp busy
    obtain idle | hb := next
    · cases idle
    · exact ⟨p, off, w, _, hp, hb, aligned, fun atStatus => notStatus (atStatus ▸ locate_status)⟩

/-- Settles O43: a command ends at its engine step or by a reset, and the host never sets DONE. -/
theorem busyFallsOnlyAtCompletionOrReset : Obligations.BusyFallsOnlyAtCompletionOrReset := by
  intro s t h
  obtain ⟨p, hp, hw, ran⟩ | ⟨-, rfl⟩ := step_cases h
  · refine ⟨fun q hq _ => .inl ⟨hw, exec_done ran, ?_⟩, fun _ _ => ⟨p, hp, hw, exec_pending ran⟩⟩
    rw [hp] at hq; cases hq; exact ran
  · obtain ⟨e, turn, next⟩ := s.hostTurn_cases
    rw [turn]
    refine ⟨fun q hq cleared => .inr ?_, fun before after => ?_⟩
    · by_cases reset : e = .reset
      · subst reset
        exact next.elim (fun idle => by cases idle) fun hb => ⟨_, hb⟩
      · have busy : (s.taken s.bus.tail).busy = true := by simp [State.busy, State.taken, hq]
        have kept := (State.deliver_busyTouched busy reset).busy_eq
        rw [State.busy_eq_false.mpr cleared, busy] at kept
        cases kept
    · have same := State.deliver_done _ _ after
      exact absurd (before.symm.trans same) Bool.false_ne_true

end Sys2Proof.Machine
end

section
/-! PROOFS of the memory family: accesses the block does not support, accesses while a command is pending, reserved offsets,
and the two buffer windows (O24, O25, O28 - O31, O34). -/

namespace Sys2Proof.Machine

/-! ### The register map beyond its registers (R20, R64 - R67) -/

/-- The offsets no rule assigns (R64, R66). -/
def ReservedOffset (off : BitVec 12) : Prop :=
  off = 0x02C ∨ (0x040 ≤ off.toNat ∧ off.toNat < 0x400) ∨ (0x500 ≤ off.toNat ∧ off.toNat < 0x800) ∨ 0x900 ≤ off.toNat

/-- The offsets whose reads are unspecified while a command is pending (R63). -/
def HiddenOffset (off : BitVec 12) : Prop :=
  off = 0x018 ∨ off = 0x01C ∨ off = 0x030 ∨ off = 0x034 ∨ off = 0x038 ∨ off = 0x03C
    ∨ (0x400 ≤ off.toNat ∧ off.toNat < 0x500) ∨ (0x800 ≤ off.toNat ∧ off.toNat < 0x900)

/-- All registers lie below 0x040. -/
theorem locate_of_past_registers {off : BitVec 12} (h : 0x040 ≤ off.toNat) : locate off = windowLocation off.toNat := by
  have noRegister : registerMap.lookup off.toNat = none := by
    rw [List.lookup_eq_none_iff]
    have below : ∀ p ∈ registerMap, p.1 < 0x040 := by decide
    exact fun p hp => bne_iff_ne.mpr (by have := below p hp; omega)
  rw [locate, noRegister, Option.getD_none]

theorem windowLocation_of_cbuf {n : Nat} (h : 0x400 ≤ n ∧ n < 0x500) : windowLocation n = .cbufWord ((n - 0x400) / 4) :=
  if_pos h

theorem windowLocation_of_bbuf {n : Nat} (h : 0x800 ≤ n ∧ n < 0x900) : windowLocation n = .bbufWord ((n - 0x800) / 4) := by
  have notCbuf : ¬ (0x400 ≤ n ∧ n < 0x500) := by omega
  exact (if_neg notCbuf).trans (if_pos h)

theorem windowLocation_of_neither {n : Nat} (hc : ¬ (0x400 ≤ n ∧ n < 0x500)) (hb : ¬ (0x800 ≤ n ∧ n < 0x900)) :
    windowLocation n = .reserved :=
  (if_neg hc).trans (if_neg hb)

theorem ReservedOffset.locate_eq {off : BitVec 12} (h : ReservedOffset off) : locate off = .reserved := by
  rcases h with rfl | h
  · rfl
  · rw [locate_of_past_registers (by omega), windowLocation_of_neither (by omega) (by omega)]

theorem HiddenOffset.hiddenWhileBusy {off : BitVec 12} (h : HiddenOffset off) :
    (locate off).hiddenWhileBusy = true := by
  rcases h with rfl | rfl | rfl | rfl | rfl | rfl | cbuf | bbuf
  iterate 6 · rfl
  · rw [locate_of_past_registers (by omega), windowLocation_of_cbuf cbuf]; rfl
  · rw [locate_of_past_registers (by omega), windowLocation_of_bbuf bbuf]; rfl

theorem windowLocation_ne_status (n : Nat) : windowLocation n ≠ .status := by
  unfold windowLocation
  split
  · simp
  · split <;> simp

/-- STATUS has one offset. -/
theorem eq_of_locate_status {off : BitVec 12} (h : locate off = .status) : off = 0x010 := by
  by_cases register : off.toNat < 0x040
  · have only : ∀ n < 0x040, locate (BitVec.ofNat 12 n) = .status → n = 0x010 := by decide
    have here := only off.toNat register (by rwa [BitVec.ofNat_toNat, BitVec.setWidth_eq])
    exact BitVec.eq_of_toNat_eq here
  · rw [locate_of_past_registers (by omega)] at h
    exact absurd h (windowLocation_ne_status _)

/-! ### Accesses the block does not support, and what a read leaves (R61, R71) -/

/-- Settles O30: such an access is not supported, and answering it is all the block does. -/
theorem badAccessGetsBuserr : Obligations.BadAccessGetsBuserr := by
  intro s off lanes w rest h bad
  have unsupported : supported off lanes = false := by
    rw [← Bool.not_eq_true, supported_iff]
    rintro ⟨aligned, full⟩
    exact bad.elim (absurd aligned) (absurd full)
  refine ⟨fun hb => ?_, fun hb => ?_⟩
  · rw [step_event h hb, State.deliver, State.hostRead, unsupported]; rfl
  · rw [step_event h hb, State.deliver, State.hostWrite, unsupported]; rfl

/-- The draw counter, the answer and the progress of the bus are no register, latch or buffer. -/
theorem BlockKept.answered (s : State) (wait draws : Nat) (bus : List BusEvent) (response : Option BusResponse) :
    BlockKept s { s with wait := wait, draws := draws, bus := bus, response := response } := by
  have stores : StoresNothing s { s with wait := wait, draws := draws, bus := bus, response := response } :=
    ⟨fun _ _ => rfl, fun _ _ => rfl, rfl, rfl⟩
  exact ⟨rfl, rfl, rfl, rfl, rfl, rfl, rfl, rfl, rfl, rfl, rfl, rfl, rfl, rfl, rfl, rfl, stores⟩

/-- Settles O31: a read changes the draw counter and the answer alone. -/
theorem readsHaveNoSideEffect : Obligations.ReadsHaveNoSideEffect := by
  intro s off lanes rest h hb
  obtain ⟨draws, response, read⟩ := (s.taken rest).hostRead_cases off lanes
  exact ⟨_, (step_event h hb).trans (congrArg _ read), .answered s _ draws rest _, rfl, rfl⟩

/-! ### Accesses while a command is pending (R62, R63) -/

/-- An aligned full write while a command is pending. -/
theorem step_writeBusy {s : State} {p : Pending} {off : BitVec 12} {w : Word} {rest : List BusEvent}
    (hp : s.pending = some p) (hw : s.wait ≠ 0) (aligned : off.toNat % 4 = 0) (hb : s.bus = .write off 0xF w :: rest) :
    step s = .next (((s.taken rest).writeBusy (locate off) w).respond { status := .okay, data := none }) := by
  have busy : (s.taken rest).busy = true := by simp [State.busy, State.taken, hp]
  rw [step_event (.inr hw) hb, State.deliver, State.hostWrite, supported_of_aligned aligned, busy]
  rfl

/-- Settles O28: at 0x010 the write of R26, at any other offset OVR. -/
theorem busyWriteIsDropped : Obligations.BusyWriteIsDropped := by
  intro s p off w rest hp hw aligned hb
  refine ⟨_, step_writeBusy hp hw aligned hb, rfl, fun other => ?_, ?_⟩
  · obtain ⟨atStatus, -⟩ | ⟨-, dropped⟩ := (s.taken rest).writeBusy_cases (locate off) w
    · exact absurd (eq_of_locate_status atStatus) other
    · rw [dropped]; exact ⟨rfl, rfl⟩
  · rintro rfl; rfl

/-- An aligned full read of a hidden location while a command is pending draws a free value (R63). -/
theorem step_readHidden {s : State} {p : Pending} {off : BitVec 12} {rest : List BusEvent} (hp : s.pending = some p)
    (hw : s.wait ≠ 0) (aligned : off.toNat % 4 = 0) (hidden : (locate off).hiddenWhileBusy = true)
    (hb : s.bus = .read off 0xF :: rest) :
    step s = .next ({ s.taken rest with draws := s.draws + 1 }.respond
      { status := .okay, data := some (Config.busyRead s.draws) }) := by
  have busy : (s.taken rest).busy = true := by simp [State.busy, State.taken, hp]
  rw [step_event (.inr hw) hb, State.deliver, State.hostRead, supported_of_aligned aligned, busy, hidden]
  rfl

/-- Settles O29: a hidden offset is none of the others, and gives a draw; every other offset gives the value it holds. -/
theorem busyReadIsCurrentOrFree : Obligations.BusyReadIsCurrentOrFree := by
  intro s p off rest hp hw aligned hb
  cases hidden : (locate off).hiddenWhileBusy with
  | true =>
    have notReserved : ¬ ReservedOffset off := fun h => by rw [h.locate_eq] at hidden; cases hidden
    refine ⟨_, _, step_readHidden hp hw aligned hidden hb, rfl, .answered s _ _ rest _, ?_, ?_, ?_, ?_, ?_, ?_, ?_, ?_, ?_,
      fun _ => ⟨rfl, rfl⟩, fun h => absurd h notReserved⟩
    all_goals rintro rfl; cases hidden
  | false =>
    have notHidden : ¬ HiddenOffset off := fun h => by rw [h.hiddenWhileBusy] at hidden; cases hidden
    refine ⟨_, _, step_read (.inr hw) aligned rfl (.inr hidden) hb, rfl, .answered s _ _ rest _, ?_, ?_, ?_, ?_, ?_, ?_,
      ?_, ?_, ?_, fun h => absurd h notHidden, fun h => congrArg s.valueAt (ReservedOffset.locate_eq h)⟩
    all_goals rintro rfl; rfl

/-! ### Reserved offsets while idle (R64) -/

/-- Settles O34: the reserved location holds 0 and takes no write. -/
theorem reservedOffsetsReadZero : Obligations.ReservedOffsetsReadZero := by
  intro s off w rest idle aligned reserved
  have located : locate off = .reserved := ReservedOffset.locate_eq reserved
  exact ⟨step_read (.inl idle) aligned located (.inl idle), step_writeIdle idle aligned located⟩

/-! ### The CBUF window (R65) -/

theorem aligned_word {base k : Nat} (h : base % 4 = 0) : (BitVec.ofNat 12 (base + 4 * k)).toNat % 4 = 0 := by
  rw [BitVec.toNat_ofNat]; omega

/-- Above the lowest byte lane the lanes are those of the rest of the word. -/
theorem extractLsb'_lane_succ {n : Nat} (hi : BitVec n) (lo : Byte) (j : Nat) :
    (hi ++ lo).extractLsb' (8 * (j + 1)) 8 = hi.extractLsb' (8 * j) 8 := by
  rw [BitVec.extractLsb'_append_eq_of_le (by omega), Nat.mul_succ, Nat.add_sub_cancel]

/-- Byte lane `j` of a CBUF word is byte `4k + j`. -/
theorem State.cbufWordAt_lane (s : State) (k : Nat) {j : Nat} (hj : j < 4) :
    (s.cbufWordAt k).extractLsb' (8 * j) 8 = s.byte (4 * k + j) := by
  have lowest {n : Nat} (hi : BitVec n) (lo : Byte) : (hi ++ lo).extractLsb' (8 * 0) 8 = lo :=
    BitVec.extractLsb'_append_eq_right
  unfold State.cbufWordAt
  match j, hj with
  | 0, _ => exact lowest _ _
  | 1, _ => exact (extractLsb'_lane_succ _ _ 0).trans (lowest _ _)
  | 2, _ => exact (extractLsb'_lane_succ _ _ 1).trans ((extractLsb'_lane_succ _ _ 0).trans (lowest _ _))
  | 3, _ =>
    exact (extractLsb'_lane_succ _ _ 2).trans ((extractLsb'_lane_succ _ _ 1).trans
      ((extractLsb'_lane_succ _ _ 0).trans BitVec.extractLsb'_eq_self))

theorem State.byte_writeCbufWord (s : State) (k : Nat) (w : Word) {j : Nat} (hj : j < 4) :
    (s.writeCbufWord k w).byte (4 * k + j) = w.extractLsb' (8 * j) 8 := by
  rw [State.writeCbufWord, State.byte_writeBytes _ _ _ _ (by simpa using hj)]
  simp

theorem State.writeCbufWord_cbufKept (s : State) (k : Nat) (w : Word) : CbufKept s (s.writeCbufWord k w) (4 * k) 4 :=
  fun b outside => s.byte_writeBytes_outside (4 * k) _ b (by simpa using outside)

/-- A host write to the CBUF window, with the new buffer left abstract: a comparison of states need not run its stores. -/
theorem State.writeCbufWord_spec (s : State) (k : Nat) (w : Word) : ∃ cb, s.writeCbufWord k w = { s with cbuf := cb } ∧
    (∀ j < 4, { s with cbuf := cb }.byte (4 * k + j) = w.extractLsb' (8 * j) 8) ∧
    CbufKept s { s with cbuf := cb } (4 * k) 4 :=
  ⟨_, rfl, fun _ hj => s.byte_writeCbufWord k w hj, s.writeCbufWord_cbufKept k w⟩

/-- Settles O24: the lanes of the word read, and the run of four bytes written. -/
theorem cbufWindowIsLittleEndian : Obligations.CbufWindowIsLittleEndian := by
  intro k hk s w rest idle
  have aligned : (BitVec.ofNat 12 (0x400 + 4 * k)).toNat % 4 = 0 := aligned_word rfl
  have located := locate_cbufWord k hk
  refine ⟨fun hb => ?_, fun hb => ?_⟩
  · exact ⟨_, _, step_read (.inl idle) aligned located (.inl idle) hb, rfl, .answered s _ _ rest _,
      fun j hj => s.cbufWordAt_lane k hj⟩
  · obtain ⟨cb, written, bytes, kept⟩ := (s.taken rest).writeCbufWord_spec k w
    have stepped := step_writeIdle idle aligned located hb
    rw [State.writeIdle, written] at stepped
    exact ⟨_, stepped, rfl, bytes, kept, rfl⟩

/-! ### The BBUF window (R67) -/

/-- Bit `j` of a string has its weight from the right (R11). -/
theorem testBit_natOfBits (bs : List Bool) {j : Nat} (hj : j < bs.length) :
    (natOfBits bs).testBit (bs.length - 1 - j) = bs[j] := by
  induction bs generalizing j with
  | nil => cases hj
  | cons b rest ih =>
    rw [natOfBits_cons, Nat.mul_comm, Nat.testBit_two_pow_mul_add _ (natOfBits_lt rest)]
    cases j with
    | zero => cases b <;> simp
    | succ j =>
      have hj : j < rest.length := by simpa using hj
      rw [if_pos (by simp; omega), List.getElem_cons_succ, ← ih hj]
      congr 1
      simp; omega

/-- Bit `31 - j` of a BBUF word is bit `32k + j`. -/
theorem State.getLsbD_bbufWordAt (s : State) (k : Nat) {j : Nat} (hj : j < 32) :
    (s.bbufWordAt k).getLsbD (31 - j) = s.bit (32 * k + j) := by
  have bit := testBit_natOfBits (s.readBits (32 * k) 32) (j := j) (by simpa using hj)
  simp only [State.length_readBits] at bit
  rw [State.bbufWordAt, zext32, BitVec.getLsbD_ofNat, bit]
  simp [State.readBits]; omega

theorem State.bit_writeBbufWord (s : State) (k : Nat) (w : Word) {j : Nat} (hj : j < 32) :
    (s.writeBbufWord k w).bit (32 * k + j) = w.getLsbD (31 - j) := by
  rw [State.writeBbufWord, State.bit_writeBits _ _ _ _ (by simpa using hj)]
  simp [bitsOfNat, BitVec.testBit_toNat]

theorem State.writeBbufWord_bbufKept (s : State) (k : Nat) (w : Word) : BbufKept s (s.writeBbufWord k w) (32 * k) 32 :=
  fun i outside => s.bit_writeBits_outside (32 * k) _ i (by simpa using outside)

/-- A host write to the BBUF window, with the new buffer left abstract as for CBUF. -/
theorem State.writeBbufWord_spec (s : State) (k : Nat) (w : Word) : ∃ bb, s.writeBbufWord k w = { s with bbuf := bb } ∧
    (∀ j < 32, { s with bbuf := bb }.bit (32 * k + j) = w.getLsbD (31 - j)) ∧
    BbufKept s { s with bbuf := bb } (32 * k) 32 :=
  ⟨_, rfl, fun _ hj => s.bit_writeBbufWord k w hj, s.writeBbufWord_bbufKept k w⟩

/-- Settles O25: the bits of the word read, and the run of 32 bits written. -/
theorem bbufWindowIsMsbFirst : Obligations.BbufWindowIsMsbFirst := by
  intro k hk s w rest idle
  have aligned : (BitVec.ofNat 12 (0x800 + 4 * k)).toNat % 4 = 0 := aligned_word rfl
  have located := locate_bbufWord k hk
  refine ⟨fun hb => ?_, fun hb => ?_⟩
  · exact ⟨_, _, step_read (.inl idle) aligned located (.inl idle) hb, rfl, .answered s _ _ rest _,
      fun j hj => s.getLsbD_bbufWordAt k hj⟩
  · obtain ⟨bb, written, bits, kept⟩ := (s.taken rest).writeBbufWord_spec k w
    have stepped := step_writeIdle idle aligned located hb
    rw [State.writeIdle, written] at stepped
    exact ⟨_, stepped, rfl, bits, kept, rfl⟩

end Sys2Proof.Machine
end

section
/-! PROOFS of the encoding family. First part: decoding and encoding (O1, O2). -/

namespace Sys2Proof.Machine

/-- Settles O1: the ten words by evaluation, every other one as a word that is not assigned. -/
theorem decodeFollowsOpcodeMap : Obligations.DecodeFollowsOpcodeMap :=
  ⟨rfl, rfl, rfl, rfl, rfl, rfl, rfl, rfl, rfl, rfl, fun _ other => decode_of_not_assigned other⟩

theorem wellFormed_illegal_iff {w : Word} : (Instr.illegal w).wellFormed = true ↔ w ∉ assignedWords := by
  simp [Instr.wellFormed]

/-- A well-formed instruction is read back from its word (R93, R95). -/
theorem decode_encode {i : Instr} (wf : i.wellFormed = true) : decode (encode i) = i := by
  cases i with
  | illegal w => exact decode_of_not_assigned (wellFormed_illegal_iff.mp wf)
  | rdu | rds | rdtxt | wru | wrs | wrtxt | armdec | armenc | parse | cksum => rfl

/-- Decoding keeps the whole word, and gives a well-formed instruction (R94). -/
theorem encode_decode (w : Word) : (decode w).wellFormed = true ∧ encode (decode w) = w := by
  by_cases assigned : w ∈ assignedWords
  · simp only [assignedWords, List.mem_cons, List.not_mem_nil, or_false] at assigned
    obtain rfl | rfl | rfl | rfl | rfl | rfl | rfl | rfl | rfl | rfl := assigned <;> exact ⟨rfl, rfl⟩
  · rw [decode_of_not_assigned assigned]
    exact ⟨wellFormed_illegal_iff.mpr assigned, rfl⟩

/-- Settles O2: both directions, split at the ten assigned words. -/
theorem decodeAndEncodeAgree : Obligations.DecodeAndEncodeAgree := ⟨fun _ => decode_encode, encode_decode⟩

end Sys2Proof.Machine
end

section
/-! PROOFS of the encoding family. Second part: the statements of a host program, and what the pseudo-instructions of
R97 do to the block (O53 - O55). -/

namespace Sys2Proof.Machine

/-! ### One statement of a host program (R96) -/

/-- The block takes its turn with the host's access as the only event on the bus. -/
theorem blockStep_of_step {b t : State} {es : List BusEvent} (hb : b.bus = [])
    (h : step { b with bus := es } = .next t) : blockStep b es = t := by
  rw [blockStep, hb, List.nil_append, h]

/-- A program that runs, and does not wait for the block, performs the statement it stands at. -/
theorem HostProgram.step_stmt {p : HostProgram} {i : HostStmt} (running : p.halted = false) (hb : p.block.bus = [])
    (notDue : p.block.engineDue = false) (at_ : p.code[p.pc]? = some i) : p.step = p.runStmt i := by
  have free : ¬ (p.halted || p.block.engineDue || !p.block.bus.isEmpty) = true := by simp [running, hb, notDue]
  rw [HostProgram.step, if_neg free, at_]

theorem HostProgram.run_succ (n : Nat) (p : HostProgram) : HostProgram.run (n + 1) p = (HostProgram.run n p).step := by
  induction n generalizing p with
  | zero => rfl
  | succ n ih => exact ih p.step

/-- The program runs, over a block with no command pending and nothing on the bus. -/
structure HostProgram.Ready (p : HostProgram) : Prop where
  running : p.halted = false
  idle : p.block.pending = none
  quiet : p.block.bus = []

/-- The program after a `wr` that the block took at location `l` (R60, R96). -/
def HostProgram.wrote (p : HostProgram) (l : Location) (w : Word) : HostProgram :=
  { p with
    pc := p.pc + 1
    block := ((p.block.taken []).writeIdle l w).respond { status := .okay, data := none } }

/-- A `wr` to an aligned offset, over an idle block, is the write of its location. -/
theorem HostProgram.Ready.step_wr {p : HostProgram} (ready : p.Ready) {off : BitVec 12} {l : Location} {x : HostValue}
    (at_ : p.code[p.pc]? = some (.wr off x)) (aligned : off.toNat % 4 = 0) (located : locate off = l) :
    p.step = p.wrote l (p.value x) := by
  have notDue : p.block.engineDue = false := by simp [State.engineDue, State.busy, ready.idle]
  have taken := step_writeIdle (s := { p.block with bus := [.write off 0xF (p.value x)] }) (l := l) ready.idle aligned
    located rfl
  rw [HostProgram.step_stmt ready.running ready.quiet notDue at_, HostProgram.runStmt,
    blockStep_of_step ready.quiet taken]
  rfl

/-! ### `poll` (R97) -/

theorem State.not_due_of_engineDue {s : State} (h : s.engineDue = false) : s.pending = none ∨ s.wait ≠ 0 :=
  (Bool.and_eq_false_iff.mp h).imp State.busy_eq_false.mp beq_eq_false_iff_ne.mp

/-- A `rd` of STATUS gives the host the STATUS word of the block, pending command or not (R63). -/
theorem HostProgram.step_rd_status {p : HostProgram} {d : Fin 16} (running : p.halted = false) (hb : p.block.bus = [])
    (notDue : p.block.engineDue = false) (at_ : p.code[p.pc]? = some (.rd d 0x010)) :
    p.step.pc = p.pc + 1 ∧ p.step.h = p.h.set d p.block.statusWord := by
  have answered := step_read (s := { p.block with bus := [.read 0x010 0xF] }) (State.not_due_of_engineDue notDue)
    (by decide) locate_status (.inr rfl) rfl
  rw [HostProgram.step_stmt running hb notDue at_, HostProgram.runStmt, blockStep_of_step hb answered]
  exact ⟨rfl, rfl⟩

theorem and_one_eq_zero_iff (w : Word) : w &&& 1 = 0 ↔ w.getLsbD 0 = false := by
  rw [BitVec.getLsbD, Nat.testBit_zero, ← BitVec.toNat_inj, BitVec.toNat_and]
  simp [Nat.and_one_is_mod]

/-- Settles O53, one statement of `poll` at a time. -/
theorem pollLoopsWhileBusy : Obligations.PollLoopsWhileBusy := by
  intro p n running hb notDue first second third
  refine ⟨fun hpc => ?_, fun hpc => ?_, fun hpc => ?_⟩
  · obtain ⟨next, loaded⟩ := HostProgram.step_rd_status running hb notDue (hpc ▸ first)
    exact ⟨by rw [next, hpc], by simp [loaded]⟩
  · rw [HostProgram.step_stmt running hb notDue (hpc ▸ second)]
    refine ⟨congrArg (· + 1) hpc, ?_⟩
    rw [← and_one_eq_zero_iff]
    simp [HostProgram.runStmt]
  · rw [HostProgram.step_stmt running hb notDue (hpc ▸ third)]
    simp [HostProgram.runStmt, hpc]

/-! ### A command's pseudo-instruction (R92, R97) -/

theorem State.accept_pending (s : State) (w : Word) :
    (s.accept w).pending = some { word := w, arg0 := s.arg0, arg1 := s.arg1, arg2 := s.arg2, cken := s.cken } := by
  obtain ⟨_, _, _, h⟩ := (s.latchCommand w).drawLatency_cases
  rw [State.accept, h]
  rfl

/-- `q` is `p` with the block still idle, at statement `n`, and with the operands `a` in the operand registers. -/
structure HostProgram.Loaded (p q : HostProgram) (n : Nat) (a : Location → Word) : Prop where
  ready : q.Ready
  code : q.code = p.code
  scratch : q.h = p.h
  pc : q.pc = n
  arg0 : q.block.arg0 = a .arg0
  arg1 : q.block.arg1 = a .arg1
  arg2 : q.block.arg2 = a .arg2
  cken : q.block.cken = p.block.cken

theorem HostProgram.Ready.loaded {p : HostProgram} (ready : p.Ready) : p.Loaded p p.pc p.block.valueAt :=
  ⟨ready, rfl, rfl, rfl, rfl, rfl, rfl, rfl⟩

namespace HostProgram.Loaded
variable {p q : HostProgram} {n : Nat} {a : Location → Word}

theorem value_eq (loaded : p.Loaded q n a) (x : HostValue) : q.value x = p.value x := by
  cases x with
  | num w => rfl
  | reg r => rw [HostProgram.value, HostProgram.value, loaded.scratch]

/-- The write itself: the operand stands in its register, the others and CKEN are kept. -/
theorem wrote (loaded : p.Loaded q n a) {l : Location} (w : Word) (operand : l ∈ [Location.arg0, .arg1, .arg2]) :
    p.Loaded (q.wrote l w) (n + 1) (Function.update a l w) := by
  obtain ⟨⟨running, idle, -⟩, code, scratch, pc, arg0, arg1, arg2, cken⟩ := loaded
  have next : q.pc + 1 = n + 1 := by rw [pc]
  simp only [List.mem_cons, List.not_mem_nil, or_false] at operand
  obtain rfl | rfl | rfl := operand
  · exact ⟨⟨running, idle, rfl⟩, code, scratch, next, rfl, arg1, arg2, cken⟩
  · exact ⟨⟨running, idle, rfl⟩, code, scratch, next, arg0, rfl, arg2, cken⟩
  · exact ⟨⟨running, idle, rfl⟩, code, scratch, next, arg0, arg1, rfl, cken⟩

/-- A `wr` to an operand register loads that operand (R30). -/
theorem step_wr (loaded : p.Loaded q n a) {off : BitVec 12} {l : Location} {x : HostValue}
    (at_ : p.code[n]? = some (.wr off x)) (aligned : off.toNat % 4 = 0) (located : locate off = l)
    (operand : l ∈ [Location.arg0, .arg1, .arg2]) : p.Loaded q.step (n + 1) (Function.update a l (p.value x)) := by
  rw [← loaded.code, ← loaded.pc] at at_
  rw [loaded.ready.step_wr at_ aligned located, loaded.value_eq]
  exact loaded.wrote _ operand

/-- A `wr` to CMD latches its word with the operands loaded before (R32). -/
theorem step_wr_cmd (loaded : p.Loaded q n a) {w : Word} (at_ : p.code[n]? = some (.wr 0x014 (.num w))) :
    q.step.pc = n + 1 ∧ q.step.block.pending =
      some { word := w, arg0 := a .arg0, arg1 := a .arg1, arg2 := a .arg2, cken := p.block.cken } := by
  rw [← loaded.code, ← loaded.pc] at at_
  rw [loaded.ready.step_wr at_ (by decide) locate_cmd, ← loaded.pc, ← loaded.arg0, ← loaded.arg1,
    ← loaded.arg2, ← loaded.cken]
  exact ⟨rfl, (q.block.taken []).accept_pending w⟩

end HostProgram.Loaded

section
variable {p : HostProgram} {x y z : HostValue} {i : Instr}

/-- A command's pseudo-instruction with two operands, written out (R97). -/
theorem expandCommand_two : expandCommand 0 [x, y] i =
    [.wr 0x020 x, .wr 0x024 y, .wr 0x014 (.num (encode i)), .rd 15 0x010, .andi 15 15 1, .bnez 15 3] := rfl

/-- A command's pseudo-instruction with three operands, written out (R97). -/
theorem expandCommand_three : expandCommand 0 [x, y, z] i =
    [.wr 0x020 x, .wr 0x024 y, .wr 0x028 z, .wr 0x014 (.num (encode i)), .rd 15 0x010, .andi 15 15 1, .bnez 15 4] := rfl

/-- The writes of ARG0 and ARG1 with which every command's pseudo-instruction begins. -/
theorem HostProgram.Ready.loaded_two (ready : p.Ready) (start : p.pc = 0) (first : p.code[0]? = some (.wr 0x020 x))
    (second : p.code[1]? = some (.wr 0x024 y)) : p.Loaded p.step.step 2
      (Function.update (Function.update p.block.valueAt .arg0 (p.value x)) .arg1 (p.value y)) :=
  ((start ▸ ready.loaded).step_wr first (by decide) locate_arg0 (by decide)).step_wr second (by decide) locate_arg1
    (by decide)

theorem HostProgram.Ready.run_two_operand_command (ready : p.Ready) (start : p.pc = 0)
    (code : p.code = expandCommand 0 [x, y] i) :
    (HostProgram.run 3 p).pc = 3 ∧ (HostProgram.run 3 p).block.pending = some
      { word := encode i, arg0 := p.value x, arg1 := p.value y, arg2 := p.block.arg2, cken := p.block.cken } := by
  rw [expandCommand_two] at code
  exact (ready.loaded_two start (by rw [code]; rfl) (by rw [code]; rfl)).step_wr_cmd (by rw [code]; rfl)

theorem HostProgram.Ready.run_three_operand_command (ready : p.Ready) (start : p.pc = 0)
    (code : p.code = expandCommand 0 [x, y, z] i) :
    (HostProgram.run 4 p).pc = 4 ∧ (HostProgram.run 4 p).block.pending = some
      { word := encode i, arg0 := p.value x, arg1 := p.value y, arg2 := p.value z, cken := p.block.cken } := by
  rw [expandCommand_three] at code
  have loaded := (ready.loaded_two start (x := x) (y := y) (by rw [code]; rfl) (by rw [code]; rfl)).step_wr (x := z)
    (by rw [code]; rfl) (by decide) locate_arg2 (by decide)
  exact loaded.step_wr_cmd (by rw [code]; rfl)

end

/-- Settles O54: each command's pseudo-instruction is `expandCommand` of its operands, and its word the encoding. -/
theorem commandStatementsIssueTheirCommand : Obligations.CommandStatementsIssueTheirCommand := by
  intro p x y z start running idle quiet
  have ready : p.Ready := ⟨running, idle, quiet⟩
  refine ⟨fun c hc code => ?_, fun c hc code => ?_⟩
  · simp only [List.mem_cons, List.not_mem_nil, or_false] at hc
    obtain rfl | rfl | rfl | rfl | rfl | rfl := hc <;> exact ready.run_two_operand_command start code
  · simp only [List.mem_cons, List.not_mem_nil, or_false] at hc
    obtain rfl | rfl | rfl | rfl := hc <;> exact ready.run_three_operand_command start code

/-! ### `ldstr` (R65, R97) -/

/-- Two runs of stores, the second directly after the first, are one run. -/
theorem Memory.storeAll_append {α : Type} (m : Memory α) (a : Nat) (vs ws : List α) :
    (m.storeAll a vs).storeAll (a + vs.length) ws = m.storeAll a (vs ++ ws) := by
  induction vs generalizing m a with
  | nil => rfl
  | cons v rest ih =>
    rw [List.length_cons, Nat.add_comm rest.length 1, ← Nat.add_assoc]
    exact ih (m.store a v) (a + 1)

/-- The first `n` bytes of the text, continued by zeros. -/
def zeroFilled (text : List Byte) (n : Nat) : List Byte := (List.range n).map fun i => text.getD i 0

@[simp] theorem length_zeroFilled (text : List Byte) (n : Nat) : (zeroFilled text n).length = n := by simp [zeroFilled]

/-- The byte lanes of a word put together from four bytes, the lowest first. -/
theorem lanes_of_four_bytes (b₀ b₁ b₂ b₃ : Byte) :
    ((List.range 4).map fun j => (b₃ ++ b₂ ++ b₁ ++ b₀).extractLsb' (8 * j) 8) = [b₀, b₁, b₂, b₃] := by
  have lowest {n : Nat} (hi : BitVec n) (lo : Byte) : (hi ++ lo).extractLsb' (8 * 0) 8 = lo :=
    BitVec.extractLsb'_append_eq_right
  have lane₁ := extractLsb'_lane_succ (b₃ ++ b₂ ++ b₁) b₀
  have lane₂ := extractLsb'_lane_succ (b₃ ++ b₂) b₁
  have lane₃ := extractLsb'_lane_succ b₃ b₂
  have highest : b₃.extractLsb' (8 * 0) 8 = b₃ := BitVec.extractLsb'_eq_self
  simp only [List.range_succ, List.range_zero, List.nil_append, List.cons_append, List.map_cons, List.map_nil, lane₁,
    lane₂, lane₃, lowest, highest]

/-- A word of `ldstr` holds the next four bytes of the zero-filled text. -/
theorem zeroFilled_ldstrWord (text : List Byte) (k : Nat) :
    zeroFilled text (4 * k) ++ ((List.range 4).map fun j => (ldstrWord text k).extractLsb' (8 * j) 8)
      = zeroFilled text (4 * (k + 1)) := by
  rw [ldstrWord, lanes_of_four_bytes]
  simp [zeroFilled, Nat.mul_succ, List.range_succ]

/-- The host's write of a word of `ldstr` extends the zero-filled text in CBUF. -/
theorem storeAll_ldstrWord (m : Memory Byte) (a : Nat) (text : List Byte) (k : Nat) :
    (m.storeAll a (zeroFilled text (4 * k))).storeAll (a + 4 * k)
        ((List.range 4).map fun j => (ldstrWord text k).extractLsb' (8 * j) 8)
      = m.storeAll a (zeroFilled text (4 * (k + 1))) := by
  have joined := m.storeAll_append a (zeroFilled text (4 * k))
    ((List.range 4).map fun j => (ldstrWord text k).extractLsb' (8 * j) 8)
  rwa [length_zeroFilled, zeroFilled_ldstrWord] at joined

/-- Statement `k` of `ldstr` writes its word to word `m + k` of the CBUF window. -/
theorem ldstr_stmt {m k : Nat} {text : List Byte} (hk : k < (text.length + 3) / 4) :
    (Pseudo.expand 0 (.ldstr (4 * m) text))[k]? =
      some (.wr (BitVec.ofNat 12 (0x400 + 4 * (m + k))) (.num (ldstrWord text k))) := by
  rw [Pseudo.expand, List.getElem?_map, List.getElem?_range hk, Option.map_some, Config.cbufBase, Nat.mul_add,
    Nat.add_assoc]

/-- After `k` statements of `ldstr` the program stands at statement `k`, and the block is as it was but for the
zero-filled text in the first `k` words. -/
theorem HostProgram.run_ldstr {p : HostProgram} {a : Nat} {text : List Byte} (ready : p.Ready) (start : p.pc = 0)
    (code : p.code = Pseudo.expand 0 (.ldstr a text)) (aligned : a % 4 = 0)
    (inside : a + 4 * ((text.length + 3) / 4) ≤ 256) {k : Nat} (hk : k ≤ (text.length + 3) / 4) :
    ∃ wait response, HostProgram.run k p = { p with
      pc := p.pc + k
      block := { p.block.writeBytes a (zeroFilled text (4 * k)) with
        wait := wait, bus := [], response := response } } := by
  induction k with
  | zero => exact ⟨p.block.wait, p.block.response, by rw [← ready.quiet]; rfl⟩
  | succ k ih =>
    obtain ⟨wait, response, before⟩ := ih (by omega)
    obtain ⟨m, rfl⟩ : ∃ m, a = 4 * m := ⟨a / 4, by omega⟩
    have at_ : p.code[p.pc + k]? = some (.wr (BitVec.ofNat 12 (0x400 + 4 * (m + k))) (.num (ldstrWord text k))) := by
      rw [start, Nat.zero_add, code, ldstr_stmt hk]
    have stillReady : (HostProgram.run k p).Ready := by rw [before]; exact ⟨ready.running, ready.idle, rfl⟩
    have stepped := stillReady.step_wr (by rw [before]; exact at_) (aligned_word rfl)
      (locate_cbufWord (m + k) (by omega))
    rw [HostProgram.run_succ, stepped, before]
    refine ⟨wait - 1, some { status := .okay, data := none }, ?_⟩
    rw [HostProgram.wrote, State.writeIdle, State.writeCbufWord, State.writeBytes, State.writeBytes, State.writeBytes,
      ← storeAll_ldstrWord, Nat.mul_add 4 m k]
    rfl

/-- Settles O55: after its last statement the zero-filled text stands in CBUF. -/
theorem ldstrWritesItsText : Obligations.LdstrWritesItsText := by
  intro p a text code start running idle quiet aligned inside q
  obtain ⟨wait, response, after⟩ :=
    HostProgram.run_ldstr ⟨running, idle, quiet⟩ start code aligned inside (Nat.le_refl _)
  have block : q.block = _ := congrArg HostProgram.block after
  have byte (i : Nat) (hi : i < 4 * ((text.length + 3) / 4)) : q.block.byte (a + i) = text.getD i 0 := by
    have written := p.block.byte_writeBytes a (zeroFilled text (4 * ((text.length + 3) / 4))) i (by simpa using hi)
    rw [block]
    exact written.trans (by simp [zeroFilled])
  refine ⟨fun i hi => ?_, fun i past hi => ?_, fun b outside => ?_, ?_⟩
  · rw [byte i (by omega), List.getD_eq_getElem _ _ hi]
  · rw [byte i hi, List.getD_eq_default _ _ past]
  · rw [block]
    exact p.block.byte_writeBytes_outside a _ b (by simpa using outside)
  · rw [block]
    rfl

end Sys2Proof.Machine
end

section
/-! PROOFS of the bit-field family. First part: the integer fields (O6, O7, O10, O11, O44, O45), and what an append leaves
in the bit string. -/

namespace Sys2Proof.Machine

/-! ### The outcomes of RDU and RDS, one equation for each (R111, R112) -/

section
variable {s : State}

theorem exec_rdu_badLen (long : 32 < s.op1) : exec .rdu s = .next (s.raise .badLen 0) := by
  simp [exec, execRdu, overlong_eq, long]

theorem exec_rdu_bitRange (short : s.op1 ≤ 32) (past : s.blen < s.op0 + s.op1) :
    exec .rdu s = .next (s.raise .bitRange 0) := by
  simp [exec, execRdu, overlong_eq, State.pastBlen_eq, Nat.not_lt.mpr short, past]

theorem exec_rdu_completes (short : s.op1 ≤ 32) (inside : s.op0 + s.op1 ≤ s.blen) :
    exec .rdu s = .next (s.complete (zext32 (s.ufield s.op0 s.op1)) 0 0 0) := by
  simp [exec, execRdu, overlong_eq, State.pastBlen_eq, Nat.not_lt.mpr short, Nat.not_lt.mpr inside]

theorem exec_rds_badLen (long : 32 < s.op1) : exec .rds s = .next (s.raise .badLen 0) := by
  simp [exec, execRds, overlong_eq, long]

theorem exec_rds_bitRange (short : s.op1 ≤ 32) (past : s.blen < s.op0 + s.op1) :
    exec .rds s = .next (s.raise .bitRange 0) := by
  simp [exec, execRds, overlong_eq, State.pastBlen_eq, Nat.not_lt.mpr short, past]

theorem exec_rds_completes (short : s.op1 ≤ 32) (inside : s.op0 + s.op1 ≤ s.blen) :
    exec .rds s = .next (s.complete (sext32 (s.sfield s.op0 s.op1)) 0 0 0) := by
  simp [exec, execRds, overlong_eq, State.pastBlen_eq, Nat.not_lt.mpr short, Nat.not_lt.mpr inside]

/-! ### The outcomes of WRU and WRS, one equation for each (R121, R122) -/

theorem exec_wru_badLen (long : 32 < s.op1) : exec .wru s = .next (s.raise .badLen 0) := by
  simp [exec, execWru, overlong_eq, long]

theorem exec_wru_bbufFull (short : s.op1 ≤ 32) (past : 2048 < s.blen + s.op1) :
    exec .wru s = .next (s.raise .bbufFull 0) := by
  simp [exec, execWru, overlong_eq, pastBbuf_eq, Nat.not_lt.mpr short, past]

theorem exec_wru_completes (short : s.op1 ≤ 32) (fits : s.blen + s.op1 ≤ 2048) :
    exec .wru s = .next (s.pack s.op1 (s.op0 % 2 ^ s.op1) (s.op0 % 2 ^ s.op1 != s.op0)) := by
  simp [exec, execWru, overlong_eq, pastBbuf_eq, Nat.not_lt.mpr short, Nat.not_lt.mpr fits]

theorem exec_wrs_badLen (long : 32 < s.op1) : exec .wrs s = .next (s.raise .badLen 0) := by
  simp [exec, execWrs, overlong_eq, long]

theorem exec_wrs_bbufFull (short : s.op1 ≤ 32) (past : 2048 < s.blen + s.op1) :
    exec .wrs s = .next (s.raise .bbufFull 0) := by
  simp [exec, execWrs, overlong_eq, pastBbuf_eq, Nat.not_lt.mpr short, past]

/-- The value WRS packs, `v mod 2^L` (R122). -/
def State.wrsValue (s : State) : Nat := (s.op0Signed % 2 ^ s.op1).toNat

theorem State.wrsValue_eq (s : State) : (s.wrsValue : Int) = s.op0Signed % 2 ^ s.op1 :=
  Int.toNat_of_nonneg (Int.emod_nonneg _ (by positivity))

theorem State.wrsValue_lt (s : State) : s.wrsValue < 2 ^ s.op1 := by
  have bound := Int.emod_lt_of_pos s.op0Signed (show (0 : Int) < 2 ^ s.op1 by positivity)
  rw [← s.wrsValue_eq] at bound
  exact_mod_cast bound

theorem exec_wrs_completes (short : s.op1 ≤ 32) (fits : s.blen + s.op1 ≤ 2048) :
    exec .wrs s = .next (s.pack s.op1 s.wrsValue (readBack s.op1 s.wrsValue != s.op0Signed)) := by
  simp [exec, execWrs, State.wrsValue, overlong_eq, pastBbuf_eq, Nat.not_lt.mpr short, Nat.not_lt.mpr fits]

end

/-! ### What an append leaves (R120) -/

/-- `t` holds the bit string of `s` with `x` after it, and every other bit and byte of `s`. -/
structure Appended (s t : State) (x : List Bool) : Prop where
  blen : t.blen = s.blen + x.length
  bits : ∀ k (h : k < x.length), t.bit (s.blen + k) = x[k]
  bbuf : BbufKept s t s.blen x.length
  cbuf : CbufKept s t 0 0

theorem State.append_appended (s : State) (x : List Bool) : Appended s (s.append x) x where
  blen := s.append_blen x
  bits := fun k hk => s.bit_writeBits s.blen x k hk
  bbuf := fun j outside => s.bit_writeBits_outside s.blen x j outside
  cbuf := fun _ _ => rfl

theorem State.append_keeps (s : State) (x : List Bool) : EngineKeeps s (s.append x) := by constructor <;> rfl

/-- Completing the command changes neither buffer nor BLEN. -/
theorem Appended.complete {s t : State} {x : List Bool} (h : Appended s t x) (r0 r1 r2 r3 : Word) :
    Appended s (t.complete r0 r1 r2 r3) x := ⟨h.blen, h.bits, h.bbuf, h.cbuf⟩

/-- What packing `w` as `L` bits leaves (R121, R122). -/
structure Packed (s t : State) (L w : Nat) (lost : Bool) : Prop where
  completes : Completes s t (BitVec.ofNat 32 (s.blen + L)) (BitVec.ofNat 32 w) 0 0
  appended : Appended s t (bitsOfNat L w)
  wrap : t.wrap = (s.wrap || lost)

theorem State.pack_packed (s : State) (L w : Nat) (lost : Bool) : Packed s (s.pack L w lost) L w lost where
  completes :=
    State.complete_spec (u := (s.setWrapIf lost).append (bitsOfNat L w)) (by constructor <;> rfl) _ _ _ _
  appended :=
    have ⟨blen, bits, bbuf, cbuf⟩ := (s.setWrapIf lost).append_appended (bitsOfNat L w)
    ⟨blen, bits, bbuf, cbuf⟩
  wrap := rfl

theorem getElem_bitsOfNat {L w k : Nat} (h : k < (bitsOfNat L w).length) :
    (bitsOfNat L w)[k] = w.testBit (L - 1 - k) := by
  simp [bitsOfNat]

section
variable {s t : State} {L w : Nat} {lost : Bool} (h : Packed s t L w lost)
include h

theorem Packed.blen : t.blen = s.blen + L := by simpa using h.appended.blen

theorem Packed.bits {k : Nat} (hk : k < L) : t.bit (s.blen + k) = w.testBit (L - 1 - k) :=
  (h.appended.bits k (by simpa using hk)).trans (getElem_bitsOfNat _)

theorem Packed.bbuf : BbufKept s t s.blen L := by simpa using h.appended.bbuf

/-- A value that is not lost leaves WRAP unchanged (R124). -/
theorem Packed.wrap_of_not_lost (kept : lost = false) : t.wrap = s.wrap := by rw [h.wrap, kept, Bool.or_false]

end

/-! ### What a field of known bits reads as (R11, R12) -/

section
variable {s : State} {i L w : Nat}

theorem State.readBits_of_bits (h : ∀ k < L, s.bit (i + k) = w.testBit (L - 1 - k)) :
    s.readBits i L = bitsOfNat L w :=
  List.map_congr_left fun k hk => h k (List.mem_range.mp hk)

/-- A field that holds the L-bit string of `w` reads as its low L bits. -/
theorem State.ufield_of_bits (h : ∀ k < L, s.bit (i + k) = w.testBit (L - 1 - k)) : s.ufield i L = w % 2 ^ L := by
  rw [State.ufield, State.readBits_of_bits h, natOfBits_bitsOfNat]

/-- Conversely every field holds the string of its own value. -/
theorem State.bit_eq_testBit_ufield {k : Nat} (hk : k < L) : s.bit (i + k) = (s.ufield i L).testBit (L - 1 - k) := by
  have bit := testBit_natOfBits (s.readBits i L) (j := k) (by simpa using hk)
  simp only [State.length_readBits] at bit
  rw [State.ufield, bit]
  simp [State.readBits]

/-- The top bit of an L-bit value says whether it is in the upper half. -/
theorem testBit_top_iff {n : Nat} (hw : w < 2 ^ (n + 1)) : w.testBit n = true ↔ 2 ^ n ≤ w :=
  ⟨Nat.ge_two_pow_of_testBit, fun high => Nat.testBit_of_two_pow_le_and_two_pow_add_one_gt high hw⟩

/-- The signed field is the reading back of the unsigned one (R12, R122). -/
theorem State.sfield_eq_readBack (s : State) (i L : Nat) : s.sfield i L = readBack L (s.ufield i L) := by
  rw [s.sfield_eq, fieldSigned, ← s.ufield_eq_sum, readBack]
  cases L with
  | zero => rfl
  | succ n =>
    have sign : s.bit i = true ↔ 2 ^ n ≤ s.ufield i (n + 1) := by
      rw [← testBit_top_iff (s.ufield_lt i (n + 1))]
      exact Bool.eq_iff_iff.mp (s.bit_eq_testBit_ufield (i := i) (L := n + 1) (k := 0) (Nat.succ_pos n))
    simp only [sign, Nat.add_sub_cancel]

/-- An L-bit field read back as signed is in the range of L-bit two's complement. -/
theorem readBack_bounds (hw : w < 2 ^ L) : -(2 : Int) ^ L ≤ 2 * readBack L w ∧ 2 * readBack L w < 2 ^ L := by
  have bound : (w : Int) < 2 ^ L := by exact_mod_cast hw
  cases L with
  | zero => simp [readBack]; omega
  | succ n =>
    have half : (2 ^ n ≤ w) ↔ (2 : Int) ^ n ≤ w := by exact_mod_cast Iff.rfl
    simp only [readBack, Nat.add_sub_cancel, half, pow_succ] at bound ⊢
    split <;> omega

/-- A value in the range of L-bit two's complement is read back from its residue (R122). -/
theorem readBack_emod {x : Int} (hL : 1 ≤ L) (low : -(2 ^ (L - 1) : Int) ≤ x) (high : x < 2 ^ (L - 1)) :
    readBack L (x % 2 ^ L).toNat = x := by
  obtain ⟨n, rfl⟩ : ∃ n, L = n + 1 := ⟨L - 1, by omega⟩
  have half {y : Nat} : (2 ^ n ≤ y) ↔ (2 : Int) ^ n ≤ y := by exact_mod_cast Iff.rfl
  simp only [readBack, half, Nat.add_sub_cancel, pow_succ] at low high ⊢
  by_cases sign : 0 ≤ x
  · have residue : x % (2 ^ n * 2) = x := Int.emod_eq_of_lt sign (by omega)
    rw [residue]
    split <;> omega
  · have residue : x % (2 ^ n * 2) = x + 2 ^ n * 2 := by
      rw [← Int.add_emod_right]
      exact Int.emod_eq_of_lt (by omega) (by omega)
    rw [residue]
    split <;> omega

end

/-- The packed field, read as signed, is the value the WRAP rule of R122 compares with the operand. -/
theorem Packed.sfield_eq {s t : State} {L w : Nat} {lost : Bool} (h : Packed s t L w lost) (hw : w < 2 ^ L) :
    t.sfield s.blen L = readBack L w := by
  rw [t.sfield_eq_readBack, State.ufield_of_bits fun k hk => h.bits hk, Nat.mod_eq_of_lt hw]

/-! ### The commands, from every state -/

/-- A register holds every number below `2^32` (R8). -/
theorem toNat_word {n : Nat} (h : n < 2 ^ 32) : (BitVec.ofNat 32 n).toNat = n := by
  rw [BitVec.toNat_ofNat, Nat.mod_eq_of_lt h]

/-- Settles O6: the field read is the sum of R11, and fits the register. -/
theorem rduReadsUnsignedField : Obligations.RduReadsUnsignedField := by
  intro s
  refine ⟨fun long => ⟨_, exec_rdu_badLen long, s.raise_spec _ _⟩,
    fun short past => ⟨_, exec_rdu_bitRange short past, s.raise_spec _ _⟩, fun short inside => ?_⟩
  have small : s.ufield s.op0 s.op1 < 2 ^ 32 := (s.ufield_lt _ _).trans_le (Nat.pow_le_pow_right (by decide) short)
  rw [← s.ufield_eq_sum]
  exact ⟨_, exec_rdu_completes short inside, State.complete_spec (EngineKeeps.refl s) _ _ _ _, toNat_word small,
    s.complete_storesNothing _ _ _ _⟩

/-- Settles O7: the signed field is in the range of 32-bit two's complement. -/
theorem rdsReadsSignedField : Obligations.RdsReadsSignedField := by
  intro s
  refine ⟨fun long => ⟨_, exec_rds_badLen long, s.raise_spec _ _⟩,
    fun short past => ⟨_, exec_rds_bitRange short past, s.raise_spec _ _⟩, fun short inside => ?_⟩
  have field : (BitVec.ofInt 32 (s.sfield s.op0 s.op1)).toInt = s.sfield s.op0 s.op1 := by
    have bounds := readBack_bounds (s.ufield_lt s.op0 s.op1)
    have width : (2 : Int) ^ s.op1 ≤ 2 ^ 32 := pow_le_pow_right₀ (by decide) short
    rw [← s.sfield_eq_readBack] at bounds
    exact BitVec.toInt_ofInt_eq_self (by decide) (by omega) (by omega)
  rw [← s.sfield_eq]
  exact ⟨_, exec_rds_completes short inside, State.complete_spec (EngineKeeps.refl s) _ _ _ _, field,
    s.complete_storesNothing _ _ _ _⟩

/-- Settles O10: a completed WRU is the packing of `v mod 2^L`. -/
theorem wruPacksUnsignedField : Obligations.WruPacksUnsignedField := by
  intro s
  refine ⟨fun long => ⟨_, exec_wru_badLen long, s.raise_spec _ _⟩,
    fun short past => ⟨_, exec_wru_bbufFull short past, s.raise_spec _ _⟩, fun short fits => ?_⟩
  have packed := s.pack_packed s.op1 (s.op0 % 2 ^ s.op1) (s.op0 % 2 ^ s.op1 != s.op0)
  exact ⟨_, exec_wru_completes short fits, packed.completes, packed.blen, fun k hk => packed.bits hk,
    by simp [packed.wrap], packed.bbuf, packed.appended.cbuf⟩

/-- Settles O11: a completed WRS is the packing of `v mod 2^L`. -/
theorem wrsPacksSignedField : Obligations.WrsPacksSignedField := by
  intro s
  refine ⟨fun long => ⟨_, exec_wrs_badLen long, s.raise_spec _ _⟩,
    fun short past => ⟨_, exec_wrs_bbufFull short past, s.raise_spec _ _⟩, fun short fits => ?_⟩
  have packed := s.pack_packed s.op1 s.wrsValue (readBack s.op1 s.wrsValue != s.op0Signed)
  refine ⟨_, _, s.wrsValue_eq, exec_wrs_completes short fits, packed.completes, packed.blen, fun k hk => packed.bits hk,
    ?_, packed.bbuf, packed.appended.cbuf⟩
  rw [← State.sfield_eq, packed.sfield_eq s.wrsValue_lt]
  simp [packed.wrap]

/-! ### The round trips (R124) -/

@[simp] theorem State.ufield_issue (s : State) (w a0 a1 a2 : Word) (i L : Nat) :
    (s.issue w a0 a1 a2).ufield i L = s.ufield i L := rfl
@[simp] theorem State.sfield_issue (s : State) (w a0 a1 a2 : Word) (i L : Nat) :
    (s.issue w a0 a1 a2).sfield i L = s.sfield i L := rfl

section
variable {s : State} {w v a2 : Word} {i L : Nat} (hL : L ≤ 32)
include hL

/-- RDU of a field inside the bit string, its operands written as registers. -/
theorem exec_rdu_issued (room : s.blen ≤ 2048) (inside : i + L ≤ s.blen) :
    ∃ t, exec .rdu (s.issue w (BitVec.ofNat 32 i) (BitVec.ofNat 32 L) a2) = .next t ∧ t.err = false
      ∧ t.res0 = zext32 (s.ufield i L) := by
  have start : (BitVec.ofNat 32 i).toNat = i := toNat_word (by omega)
  have length : (BitVec.ofNat 32 L).toNat = L := toNat_word (by omega)
  refine ⟨_, exec_rdu_completes (by simpa [length]) (by simpa [start, length]), rfl, ?_⟩
  simp [start, length]

/-- RDS of a field inside the bit string, its operands written as registers. -/
theorem exec_rds_issued (room : s.blen ≤ 2048) (inside : i + L ≤ s.blen) :
    ∃ t, exec .rds (s.issue w (BitVec.ofNat 32 i) (BitVec.ofNat 32 L) a2) = .next t ∧ t.err = false
      ∧ t.res0 = sext32 (s.sfield i L) := by
  have start : (BitVec.ofNat 32 i).toNat = i := toNat_word (by omega)
  have length : (BitVec.ofNat 32 L).toNat = L := toNat_word (by omega)
  refine ⟨_, exec_rds_completes (by simpa [length]) (by simpa [start, length]), rfl, ?_⟩
  simp [start, length]

/-- WRU of a value that fits loses nothing. -/
theorem exec_wru_issued (room : s.blen + L ≤ 2048) (fits : v.toNat < 2 ^ L) :
    ∃ t, exec .wru (s.issue w v (BitVec.ofNat 32 L) a2) = .next t
      ∧ Packed (s.issue w v (BitVec.ofNat 32 L) a2) t L v.toNat false := by
  have length : (BitVec.ofNat 32 L).toNat = L := toNat_word (by omega)
  have wrote := exec_wru_completes (s := s.issue w v (BitVec.ofNat 32 L) a2) (by simpa [length]) (by simpa [length])
  simp only [State.op0_issue, State.op1_issue, length, Nat.mod_eq_of_lt fits, bne_self_eq_false] at wrote
  exact ⟨_, wrote, State.pack_packed _ _ _ _⟩

/-- WRS of a value in the range of L-bit two's complement loses nothing. -/
theorem exec_wrs_issued (room : s.blen + L ≤ 2048) (positive : 1 ≤ L) (low : -(2 ^ (L - 1) : Int) ≤ v.toInt)
    (high : v.toInt < 2 ^ (L - 1)) :
    ∃ t n, exec .wrs (s.issue w v (BitVec.ofNat 32 L) a2) = .next t
      ∧ Packed (s.issue w v (BitVec.ofNat 32 L) a2) t L n false ∧ n < 2 ^ L ∧ readBack L n = v.toInt := by
  have length : (BitVec.ofNat 32 L).toNat = L := toNat_word (by omega)
  have back := readBack_emod positive low high
  have small := (s.issue w v (BitVec.ofNat 32 L) a2).wrsValue_lt
  have wrote := exec_wrs_completes (s := s.issue w v (BitVec.ofNat 32 L) a2) (by simpa [length]) (by simpa [length])
  simp only [State.wrsValue, State.op0Signed_issue, State.op1_issue, length, back, bne_self_eq_false] at wrote small
  exact ⟨_, _, wrote, State.pack_packed _ _ _ _, small, back⟩

end

/-- Settles O44: the low L bits of a value below `2^L` are the value. -/
theorem unsignedFieldRoundTrip : Obligations.UnsignedFieldRoundTrip := by
  intro s v a2 b2 L hL room fits
  obtain ⟨t, wrote, packed⟩ := exec_wru_issued (w := 0x18) (a2 := a2) hL room fits
  have blen : t.blen = s.blen + L := packed.blen
  have field : t.ufield s.blen L = v.toNat :=
    (State.ufield_of_bits fun k hk => packed.bits hk).trans (Nat.mod_eq_of_lt fits)
  obtain ⟨u, read, noErr, res0⟩ := exec_rdu_issued (w := 0x10) (a2 := b2) hL (blen.trans_le room) blen.ge
  exact ⟨t, u, wrote, packed.completes.err, packed.wrap_of_not_lost rfl, read, noErr,
    by rw [res0, field, zext32, BitVec.ofNat_toNat, BitVec.setWidth_eq]⟩

/-- Settles O45: the packed residue of a value in range is read back as the value. -/
theorem signedFieldRoundTrip : Obligations.SignedFieldRoundTrip := by
  intro s v a2 b2 L positive hL room low high
  obtain ⟨t, n, wrote, packed, small, back⟩ := exec_wrs_issued (w := 0x19) (a2 := a2) hL room positive low high
  have blen : t.blen = s.blen + L := packed.blen
  have field : t.sfield s.blen L = v.toInt := (packed.sfield_eq small).trans back
  obtain ⟨u, read, noErr, res0⟩ := exec_rds_issued (w := 0x11) (a2 := b2) hL (blen.trans_le room) blen.ge
  exact ⟨t, u, wrote, packed.completes.err, packed.wrap_of_not_lost rfl, read, noErr,
    by rw [res0, field, sext32, BitVec.ofInt_toInt]⟩

end Sys2Proof.Machine
end

section
/-! PROOFS of the bit-field family. Second part: the trim and the 6-bit texts (O8, O9, O12, O46). -/

namespace Sys2Proof.Machine

/-! ### Dropping a run from either end of a list -/

section
variable {α : Type} {p : α → Bool} {l : List α} {x : α}

theorem head?_dropWhile_ne (hx : p x = true) : (l.dropWhile p).head? ≠ some x := by
  intro head
  have stops := List.head?_dropWhile_not p l
  rw [head] at stops
  exact absurd (hx.symm.trans stops) (by decide)

theorem getLast?_rdropWhile_ne (hx : p x = true) : (l.rdropWhile p).getLast? ≠ some x := by
  rw [List.rdropWhile, List.getLast?_reverse]
  exact head?_dropWhile_ne hx

/-- What is left after dropping at the end begins as the whole list did. -/
theorem head?_of_head?_rdropWhile (h : (l.rdropWhile p).head? = some x) : l.head? = some x := by
  obtain ⟨dropped, whole⟩ := List.rdropWhile_prefix p l
  rw [← whole, List.head?_append, h, Option.some_or]

theorem rdropWhile_append_of_forall {pad : List α} (h : ∀ b ∈ pad, p b = true) :
    (l ++ pad).rdropWhile p = l.rdropWhile p := by
  rw [List.rdropWhile, List.rdropWhile, List.reverse_append,
    List.dropWhile_append_of_pos fun b hb => h b (List.mem_reverse.mp hb)]

end

/-- Settles O8: each of the three runs `trim6` drops is one of the parts. -/
theorem trimRemovesPaddingThenSpaces : Obligations.TrimRemovesPaddingThenSpaces := by
  intro t
  let text := t.rdropWhile (· == 0x40)
  let pad := t.rtakeWhile (· == 0x40)
  let lead := text.takeWhile (· == 0x20)
  let tail := (text.dropWhile (· == 0x20)).rtakeWhile (· == 0x20)
  have parts : lead ++ trim6 t ++ tail = text := by
    rw [List.append_assoc, trim6, List.rdropWhile_append_rtakeWhile, List.takeWhile_append_dropWhile]
  refine ⟨lead, tail, pad, ?_, fun b hb => ?_, ?_, fun b hb => ?_, fun b hb => ?_, fun head => ?_, ?_⟩
  · rw [parts, List.rdropWhile_append_rtakeWhile]
  · exact eq_of_beq (List.mem_rtakeWhile_imp (p := (· == 0x40)) hb)
  · rw [parts]; exact getLast?_rdropWhile_ne rfl
  · exact eq_of_beq (List.mem_takeWhile_imp (p := (· == 0x20)) hb)
  · exact eq_of_beq (List.mem_rtakeWhile_imp (p := (· == 0x20)) hb)
  · exact head?_dropWhile_ne rfl (head?_of_head?_rdropWhile head)
  · exact getLast?_rdropWhile_ne rfl

/-- A text that neither starts with a space nor ends with a space or `@` is what is left of it after padding. -/
theorem trim6_append_padding {text pad : List Byte} (hpad : ∀ b ∈ pad, b = 0x40) (first : text.head? ≠ some 0x20)
    (space : text.getLast? ≠ some 0x20) (at_ : text.getLast? ≠ some 0x40) : trim6 (text ++ pad) = text := by
  have kept {x : Byte} (h : text.getLast? ≠ some x) : text.rdropWhile (· == x) = text :=
    List.rdropWhile_eq_self_iff.mpr fun nonempty same =>
      h ((List.getLast?_eq_some_getLast nonempty).trans (congrArg some (eq_of_beq same)))
  have begins : text.dropWhile (· == 0x20) = text := by
    cases text with
    | nil => rfl
    | cons b rest => exact List.dropWhile_cons_of_neg (by simpa using first)
  rw [trim6, rdropWhile_append_of_forall (by simpa using hpad), kept at_, begins, kept space]

/-! ### The outcomes of RDTXT and WRTXT, one equation for each (R114, R123) -/

section
variable {s : State}

/-- The text RDTXT decodes and trims (R114). -/
def State.decodedText (s : State) : List Byte := trim6 (s.rawText s.op0 (s.textGroups s.op0 s.op1))

/-- The bits WRTXT packs: the codes of its characters (R123). -/
def State.textBits (s : State) : List Bool :=
  (s.paddedText s.op0 s.op1 s.op2).flatMap fun c => bitsOfNat 6 (inv6 c)

/-- The number of unmapped characters WRTXT reports (R123). -/
def State.unmappedCount (s : State) : Nat := (s.paddedText s.op0 s.op1 s.op2).countP fun c => !isMapped c

theorem exec_rdtxt_cbufRange (past : 256 < s.op2 + s.op1) : exec .rdtxt s = .next (s.raise .cbufRange 0) := by
  simp [exec, execRdtxt, pastCbuf_eq, past]

theorem exec_rdtxt_completes (inside : s.op2 + s.op1 ≤ 256) :
    exec .rdtxt s = .next ((s.writeBytes s.op2 s.decodedText).complete
      (zext32 s.decodedText.length) (zext32 (s.textGroups s.op0 s.op1)) 0 0) := by
  simp [exec, execRdtxt, State.decodedText, pastCbuf_eq, Nat.not_lt.mpr inside]

theorem exec_wrtxt_cbufRange (past : 256 < s.op0 + s.op1) : exec .wrtxt s = .next (s.raise .cbufRange 0) := by
  simp [exec, execWrtxt, pastCbuf_eq, past]

theorem exec_wrtxt_bbufFull (inside : s.op0 + s.op1 ≤ 256) (past : 2048 < s.blen + 6 * s.op2) :
    exec .wrtxt s = .next (s.raise .bbufFull 0) := by
  simp [exec, execWrtxt, pastCbuf_eq, pastBbuf_eq, Nat.not_lt.mpr inside, past]

theorem exec_wrtxt_completes (inside : s.op0 + s.op1 ≤ 256) (fits : s.blen + 6 * s.op2 ≤ 2048) :
    exec .wrtxt s = .next ((s.append s.textBits).complete
      (zext32 (s.blen + 6 * s.op2)) (zext32 s.unmappedCount) 0 0) := by
  simp [exec, execWrtxt, State.textBits, State.unmappedCount, pastCbuf_eq, pastBbuf_eq, Nat.not_lt.mpr inside,
    Nat.not_lt.mpr fits]

end

/-! ### RDTXT -/

theorem State.rawText_eq_sum (s : State) (i g : Nat) :
    s.rawText i g = (List.range g).map fun k => chr6 (fieldSum s.bit (i + 6 * k) 6) := by
  simp only [State.rawText, State.ufield_eq_sum]

/-- Settles O9: the decoded text is written as one run. -/
theorem rdtxtDecodesText : Obligations.RdtxtDecodesText := by
  intro s
  refine ⟨fun past => ⟨_, exec_rdtxt_cbufRange past, s.raise_spec _ _⟩, fun inside => ?_⟩
  intro g text
  have decoded : s.decodedText = text := congrArg trim6 (s.rawText_eq_sum _ _)
  have written := exec_rdtxt_completes inside
  have groups : s.textGroups s.op0 s.op1 = g := rfl
  rw [decoded, groups] at written
  clear_value text g
  exact ⟨_, written, State.complete_spec (by constructor <;> rfl) _ _ _ _,
    fun i hi => s.byte_writeBytes s.op2 text i hi, fun b outside => s.byte_writeBytes_outside s.op2 text b outside,
    fun _ _ => rfl, rfl, rfl⟩

/-! ### WRTXT -/

/-- Character `k` of the padded text of the `m` bytes at `a` (R123). -/
def State.textChar (s : State) (a m k : Nat) : Byte := if k < m then upper (s.byte (a + k)) else 0x40

theorem State.textChar_source (s : State) {a m k : Nat} (h : k < m) : s.textChar a m k = upper (s.byte (a + k)) :=
  if_pos h

theorem State.textChar_padding (s : State) {a m k : Nat} (h : m ≤ k) : s.textChar a m k = 0x40 := if_neg (by omega)

theorem State.paddedText_eq_map (s : State) (a m n : Nat) : s.paddedText a m n = (List.range n).map (s.textChar a m) :=
  rfl

@[simp] theorem State.length_paddedText (s : State) (a m n : Nat) : (s.paddedText a m n).length = n := by
  simp [State.paddedText]

theorem State.length_textBits (s : State) : s.textBits.length = 6 * s.op2 := by
  rw [State.textBits, length_flatMap_bits, State.length_paddedText]

/-- The bits of character `k` of a packed text are those of its code. -/
theorem Appended.textBits {s t : State} (h : Appended s t s.textBits) {k j : Nat} (hk : k < s.op2) (hj : j < 6) :
    t.bit (s.blen + (6 * k + j)) = (inv6 (s.textChar s.op0 s.op1 k)).testBit (5 - j) := by
  have group := getElem?_flatMap_bits (s.paddedText s.op0 s.op1 s.op2) inv6 k j (by simpa using hk) hj
  have inBits : 6 * k + j < s.textBits.length := by rw [s.length_textBits]; omega
  rw [h.bits _ inBits]
  simpa [State.paddedText_eq_map] using (List.getElem?_eq_getElem inBits).symm.trans group

theorem isMapped_iff {c : Byte} : isMapped c = true ↔ 0x20 ≤ c.toNat ∧ c.toNat ≤ 0x5F := by simp [isMapped]

/-- The padding is mapped, so the count is over the source characters alone (R123). -/
theorem State.unmappedCount_eq (s : State) : s.unmappedCount = ((Finset.range s.op2).filter fun k => k < s.op1 ∧
    ¬ (0x20 ≤ (s.textChar s.op0 s.op1 k).toNat ∧ (s.textChar s.op0 s.op1 k).toNat ≤ 0x5F)).card := by
  rw [State.unmappedCount, State.paddedText_eq_map, List.countP_map, List.countP_eq_length_filter]
  refine congrArg List.length (List.filter_congr fun k _ => Bool.eq_iff_iff.mpr ?_)
  by_cases source : k < s.op1
  · simp [source, ← isMapped_iff]
  · simp [source, s.textChar_padding (Nat.le_of_not_lt source), isMapped]

/-- Settles O12: the codes are appended as one run, and WRAP is not touched. -/
theorem wrtxtPacksText : Obligations.WrtxtPacksText := by
  intro s
  refine ⟨fun past => ⟨_, exec_wrtxt_cbufRange past, s.raise_spec _ _⟩,
    fun inside past => ⟨_, exec_wrtxt_bbufFull inside past, s.raise_spec _ _⟩, fun inside fits => ?_⟩
  intro c u
  have count : s.unmappedCount = u := s.unmappedCount_eq
  have appended := (s.append_appended s.textBits).complete (zext32 (s.blen + 6 * s.op2)) (zext32 u) 0 0
  have wrote := exec_wrtxt_completes inside fits
  rw [count] at wrote
  exact ⟨_, wrote, State.complete_spec (s.append_keeps _) _ _ _ _, by simp [s.length_textBits],
    fun k hk j hj => appended.textBits hk hj, by simpa [s.length_textBits] using appended.bbuf, appended.cbuf, rfl⟩

/-! ### The round trip of texts (R124) -/

/-- What RDTXT decodes of the groups a packed text of mapped characters left is the padded text. -/
theorem Appended.rawText {s t : State} (h : Appended s t s.textBits)
    (mapped : ∀ k < s.op1, isMapped (s.textChar s.op0 s.op1 k) = true) :
    t.rawText s.blen s.op2 = s.paddedText s.op0 s.op1 s.op2 := by
  refine List.map_congr_left fun k hk => ?_
  have code : t.ufield (s.blen + 6 * k) 6 = inv6 (s.textChar s.op0 s.op1 k) % 2 ^ 6 :=
    State.ufield_of_bits fun j hj => (Nat.add_assoc _ _ _).symm ▸ h.textBits (List.mem_range.mp hk) hj
  rw [code, Nat.mod_eq_of_lt (a := inv6 _) (b := 2 ^ 6) (inv6_lt _), chr6_inv6]
  · rfl
  · by_cases source : k < s.op1
    · exact mapped k source
    · rw [s.textChar_padding (Nat.le_of_not_lt source)]; decide

/-- The padded text is the uppercased source and a run of `@` (R123). -/
theorem State.paddedText_append (s : State) {a m n : Nat} (h : m ≤ n) :
    s.paddedText a m n = (s.readBytes a m).map upper ++ List.replicate (n - m) 0x40 := by
  obtain ⟨d, rfl⟩ := Nat.exists_eq_add_of_le h
  rw [State.paddedText_eq_map, List.range_add, List.map_append, State.readBytes, List.map_map, List.map_map,
    Nat.add_sub_cancel_left]
  congr 1
  · exact List.map_congr_left fun k hk => s.textChar_source (List.mem_range.mp hk)
  · exact List.eq_replicate_iff.mpr ⟨by simp, by simp [s.textChar_padding]⟩

/-- Trimming the padded text gives the uppercased source back, where its ends are neither spaces nor `@` (R124). -/
theorem State.trim6_paddedText (s : State) {a m n : Nat} (h : m ≤ n) (ends : 0 < m → upper (s.byte a) ≠ 0x20
      ∧ upper (s.byte (a + (m - 1))) ≠ 0x20 ∧ upper (s.byte (a + (m - 1))) ≠ 0x40) :
    trim6 (s.paddedText a m n) = (s.readBytes a m).map upper := by
  have padding : ∀ b ∈ List.replicate (n - m) (0x40 : Byte), b = 0x40 := fun _ => List.eq_of_mem_replicate
  rw [s.paddedText_append h]
  cases m with
  | zero => exact trim6_append_padding padding nofun nofun nofun
  | succ m =>
    obtain ⟨first, space, at_⟩ := ends (Nat.succ_pos m)
    refine trim6_append_padding padding ?_ ?_ ?_
    · simpa [State.readBytes, List.range_succ_eq_map] using first
    · simpa [State.readBytes, List.range_succ] using space
    · simpa [State.readBytes, List.range_succ] using at_

/-- Groups that all lie in the bit string are all decoded (R114). -/
theorem State.textGroups_of_fits (s : State) {i n : Nat} (h : i + 6 * n ≤ s.blen) : s.textGroups i n = n := by
  rw [State.textGroups, if_pos (by omega)]
  omega

@[simp] theorem State.rawText_issue (s : State) (w a0 a1 a2 : Word) (i g : Nat) :
    (s.issue w a0 a1 a2).rawText i g = s.rawText i g := rfl
@[simp] theorem State.textGroups_issue (s : State) (w a0 a1 a2 : Word) (i n : Nat) :
    (s.issue w a0 a1 a2).textGroups i n = s.textGroups i n := rfl

/-- RDTXT of groups that all lie in the bit string, its operands written as registers. -/
theorem exec_rdtxt_issued {s : State} {w n d : Word} {i : Nat} {text : List Byte} (room : s.blen ≤ 2048)
    (inside : i + 6 * n.toNat ≤ s.blen) (fits : d.toNat + n.toNat ≤ 256)
    (decoded : trim6 (s.rawText i n.toNat) = text) :
    ∃ t, exec .rdtxt (s.issue w (BitVec.ofNat 32 i) n d) = .next t ∧ t.err = false ∧ t.res0 = zext32 text.length
      ∧ ∀ k (h : k < text.length), t.byte (d.toNat + k) = text[k] := by
  have start : (BitVec.ofNat 32 i).toNat = i := toNat_word (by omega)
  have decodes : (s.issue w (BitVec.ofNat 32 i) n d).decodedText = text := by
    simp only [State.decodedText, State.op0_issue, State.op1_issue, start, State.rawText_issue, State.textGroups_issue,
      s.textGroups_of_fits inside, decoded]
  have read := exec_rdtxt_completes (s := s.issue w (BitVec.ofNat 32 i) n d) (by simpa using fits)
  rw [decodes] at read
  exact ⟨_, read, rfl, rfl, fun k hk => State.byte_writeBytes _ d.toNat text k hk⟩

/-- Settles O46: the packed bits decode to the padded text, and its trim is the source. -/
theorem textRoundTrip : Obligations.TextRoundTrip := by
  intro s a m n d source room target shorter mapped ends
  have wrote := exec_wrtxt_completes (s := s.issue 0x1A a m n) source room
  have appended := ((s.issue 0x1A a m n).append_appended (s.issue 0x1A a m n).textBits).complete
    (zext32 (s.blen + 6 * n.toNat)) (zext32 (s.issue 0x1A a m n).unmappedCount) 0 0
  have blen := appended.blen
  rw [State.length_textBits] at blen
  have raw := appended.rawText fun k hk => isMapped_iff.mpr (State.textChar_source _ hk ▸ mapped k hk)
  have decoded := (congrArg trim6 raw).trans (s.trim6_paddedText shorter ends)
  obtain ⟨u, read, noErr, res0, bytes⟩ := exec_rdtxt_issued (w := 0x12) (blen.trans_le room) blen.ge target decoded
  refine ⟨_, u, wrote, rfl, read, noErr, ?_, fun k hk => ?_⟩
  · simp [res0, zext32]
  · simpa [State.readBytes] using bytes k (by simpa using hk)

end Sys2Proof.Machine
end

section
/-! PROOFS of the armor family. First part: ARMDEC and ARMENC from every state (O13, O14, O51). -/

namespace Sys2Proof.Machine

/-! ### The first bad byte of a payload (R141) -/

theorem isArmor_iff {c : Byte} : isArmor c = true ↔ ¬ (c.toNat < 0x30 ∨ 0x77 < c.toNat) := by
  simp [isArmor]

/-- Armor characters are passed over. -/
theorem firstBadArmor_append {pre : List Byte} (good : ∀ c ∈ pre, isArmor c = true) (k : Nat) (cs : List Byte) :
    firstBadArmor k (pre ++ cs) = firstBadArmor (k + pre.length) cs := by
  induction pre generalizing k with
  | nil => rfl
  | cons c rest ih =>
    obtain ⟨head, tail⟩ := List.forall_mem_cons.mp good
    rw [List.cons_append, firstBadArmor, if_pos head, ih tail, List.length_cons]
    congr 1
    omega

theorem firstBadArmor_of_forall {cs : List Byte} (good : ∀ c ∈ cs, isArmor c = true) (k : Nat) :
    firstBadArmor k cs = none := by
  have passed := firstBadArmor_append good k []
  rwa [List.append_nil] at passed

section
variable {s : State} {a : Nat}

theorem State.forall_mem_readBytes {n : Nat} {p : Byte → Prop} (h : ∀ k < n, p (s.byte (a + k))) :
    ∀ c ∈ s.readBytes a n, p c := by
  simpa [State.readBytes] using h

/-- A run of bytes, split at its byte `k`. -/
theorem State.readBytes_split (k m : Nat) :
    s.readBytes a (k + 1 + m) = s.readBytes a k ++ s.byte (a + k) :: s.readBytes (a + (k + 1)) m := by
  simp [State.readBytes, List.range_add, Function.comp_def, Nat.add_assoc]

/-- The answer of the scan is the first byte that is no armor character. -/
theorem State.firstBadArmor_readBytes {n k : Nat} (hk : k < n) (bad : ¬ isArmor (s.byte (a + k)) = true)
    (good : ∀ j < k, isArmor (s.byte (a + j)) = true) :
    firstBadArmor 0 (s.readBytes a n) = some (k, s.byte (a + k)) := by
  obtain ⟨m, rfl⟩ := Nat.exists_eq_add_of_le hk
  rw [State.readBytes_split, firstBadArmor_append (State.forall_mem_readBytes good), firstBadArmor, if_neg bad,
    State.length_readBytes, Nat.zero_add]

end

/-- The two fields of ERRINFO do not overlap (R200). -/
theorem badArmorInfo_eq {k : Nat} (hk : k < 2 ^ 16) (c : Byte) :
    badArmorInfo k c = BitVec.ofNat 32 (k + c.toNat * 2 ^ 16) := by
  rw [badArmorInfo, Nat.or_comm, ← Nat.shiftLeft_add_eq_or_of_lt hk, Nat.shiftLeft_eq, Nat.add_comm]

/-! ### The outcomes of ARMDEC, one equation for each (R141) -/

section
variable {s : State}

/-- The bits ARMDEC stores: the groups of its payload. -/
def State.payloadBits (s : State) : List Bool := (s.readBytes s.op0 s.op1).flatMap fun c => bitsOfNat 6 (unarmor c)

theorem exec_armdec_cbufRange (past : 256 < s.op0 + s.op1) : exec .armdec s = .next (s.raise .cbufRange 0) := by
  simp [exec, execArmdec, pastCbuf_eq, past]

section
variable (inside : s.op0 + s.op1 ≤ 256)
include inside

/-- A payload inside CBUF never fills BBUF (R141). -/
theorem pastBbuf_payload : pastBbuf 0 (6 * s.op1) = false := by
  simp only [pastBbuf_eq, decide_eq_false_iff_not]
  omega

theorem exec_armdec_badFill (tooLong : 6 * s.op1 < s.op2) : exec .armdec s = .next (s.raise .badFill 0) := by
  simp [exec, execArmdec, pastCbuf_eq, Nat.not_lt.mpr inside, pastBbuf_payload inside, tooLong]

variable (fill : s.op2 ≤ 6 * s.op1)
include fill

theorem exec_armdec_badArmor {k : Nat} {c : Byte} (first : firstBadArmor 0 (s.readBytes s.op0 s.op1) = some (k, c)) :
    exec .armdec s = .next (s.raise .badArmor (badArmorInfo k c)) := by
  simp [exec, execArmdec, pastCbuf_eq, Nat.not_lt.mpr inside, pastBbuf_payload inside, Nat.not_lt.mpr fill, first]

theorem exec_armdec_completes (good : firstBadArmor 0 (s.readBytes s.op0 s.op1) = none) :
    exec .armdec s = .next (((s.writeBits 0 s.payloadBits).setBlen (6 * s.op1 - s.op2)).complete
      (zext32 (6 * s.op1 - s.op2)) 0 0 0) := by
  simp [exec, execArmdec, State.payloadBits, pastCbuf_eq, Nat.not_lt.mpr inside, pastBbuf_payload inside,
    Nat.not_lt.mpr fill, good]

end

end

/-! ### What ARMDEC leaves (R141) -/

/-- `t` holds the decoded payload of `s` as its bit string, and the dropped fill bits past it. -/
structure Decoded (s t : State) : Prop where
  completes : Completes s t (BitVec.ofNat 32 (6 * s.op1 - s.op2)) 0 0 0
  blen : t.blen = 6 * s.op1 - s.op2
  bits : ∀ k < s.op1, ∀ j < 6, t.bit (6 * k + j) = (unarmor (s.byte (s.op0 + k))).testBit (5 - j)
  bbuf : BbufKept s t 0 (6 * s.op1)
  cbuf : CbufKept s t 0 0
  wrap : t.wrap = s.wrap

section
variable {s : State}

@[simp] theorem State.length_payloadBits (s : State) : s.payloadBits.length = 6 * s.op1 := by
  rw [State.payloadBits, length_flatMap_bits, State.length_readBytes]

/-- Bit `j` of the group of payload character `k` (R140). -/
theorem State.getElem_payloadBits {k j : Nat} (hk : k < s.op1) (hj : j < 6) (h : 6 * k + j < s.payloadBits.length) :
    s.payloadBits[6 * k + j] = (unarmor (s.byte (s.op0 + k))).testBit (5 - j) := by
  have group := getElem?_flatMap_bits (s.readBytes s.op0 s.op1) unarmor k j (by simpa using hk) hj
  rw [State.getElem_readBytes _ _ _ _ hk] at group
  exact Option.some.inj ((List.getElem?_eq_getElem h).symm.trans group)

/-- ARMDEC of a payload of armor characters whose fill is no longer than its bits. -/
theorem exec_armdec_decoded (inside : s.op0 + s.op1 ≤ 256) (fill : s.op2 ≤ 6 * s.op1)
    (good : ∀ k < s.op1, isArmor (s.byte (s.op0 + k)) = true) : ∃ t, exec .armdec s = .next t ∧ Decoded s t := by
  have scanned := firstBadArmor_of_forall (State.forall_mem_readBytes good) 0
  refine ⟨_, exec_armdec_completes inside fill scanned, ?_⟩
  constructor
  case completes => exact State.complete_spec (by constructor <;> rfl) _ _ _ _
  case blen => rfl
  case bits =>
    intro k hk j hj
    have written : 6 * k + j < s.payloadBits.length := by simp; omega
    rw [← s.getElem_payloadBits hk hj written]
    simpa using s.bit_writeBits 0 s.payloadBits (6 * k + j) written
  case bbuf => exact fun j outside => s.bit_writeBits_outside 0 s.payloadBits j (by simpa using outside)
  case cbuf => exact fun _ _ => rfl
  case wrap => rfl

/-- ARMDEC never answers BBUF_FULL (R141). -/
theorem exec_armdec_errcode_ne_bbufFull {t : State} (h : exec .armdec s = .next t) : t.errcode ≠ .bbufFull := by
  by_cases past : 256 < s.op0 + s.op1
  · rw [exec_armdec_cbufRange past] at h; cases h; nofun
  have inside := Nat.le_of_not_lt past
  by_cases tooLong : 6 * s.op1 < s.op2
  · rw [exec_armdec_badFill inside tooLong] at h; cases h; nofun
  have fill := Nat.le_of_not_lt tooLong
  cases scan : firstBadArmor 0 (s.readBytes s.op0 s.op1) with
  | none => rw [exec_armdec_completes inside fill scan] at h; cases h; nofun
  | some bad => rw [exec_armdec_badArmor inside fill scan] at h; cases h; nofun

end

/-- Settles O13: the scan finds the first bad byte, and without one the groups are written as one run from bit 0. -/
theorem armdecReplacesBitString : Obligations.ArmdecReplacesBitString := by
  intro s bad
  refine ⟨fun past => ⟨_, exec_armdec_cbufRange past, s.raise_spec _ _⟩,
    fun inside tooLong => ⟨_, exec_armdec_badFill inside tooLong, s.raise_spec _ _⟩,
    fun inside fill k hk isBad first => ?_, fun inside fill good => ?_, fun t => exec_armdec_errcode_ne_bbufFull⟩
  · have scanned := State.firstBadArmor_readBytes hk (fun armored => isArmor_iff.mp armored isBad)
      fun j hj => isArmor_iff.mpr (first j hj)
    rw [← badArmorInfo_eq (by omega)]
    exact ⟨_, exec_armdec_badArmor inside fill scanned, s.raise_spec _ _⟩
  · obtain ⟨t, decoded, spec⟩ := exec_armdec_decoded inside fill fun k hk => isArmor_iff.mpr (good k hk)
    exact ⟨t, decoded, spec.completes, spec.blen, spec.bits, spec.bbuf, spec.cbuf, spec.wrap⟩

/-! ### The groups of a bit field (R150) -/

/-- Group `k` of the `L` bits from bit `i` on, zeros following them. -/
def State.armorGroup (s : State) (i L k : Nat) : Nat :=
  fieldSum (fun b => decide (b < i + L) && s.bit b) (i + 6 * k) 6

theorem fieldSum_six (B : Nat → Bool) (i : Nat) : fieldSum B i 6 = natOfBits ((List.range 6).map fun j => B (i + j)) := by
  have places : List.range 6 = [0, 1, 2, 3, 4, 5] := rfl
  simp only [fieldSum, Finset.sum_range_succ, Finset.sum_range_zero, natOfBits, places, List.map_cons, List.map_nil,
    List.foldl_cons, List.foldl_nil]
  ring

section
variable {s : State} {i L : Nat}

theorem State.armorGroup_eq_natOfBits (k : Nat) : s.armorGroup i L k = natOfBits ((List.range 6).map fun j =>
    if 6 * k + j < L then s.bit (i + 6 * k + j) else false) := by
  rw [State.armorGroup, fieldSum_six]
  refine congrArg natOfBits (List.map_congr_left fun j _ => ?_)
  have inField : i + 6 * k + j < i + L ↔ 6 * k + j < L := by omega
  by_cases h : 6 * k + j < L <;> simp [inField, h]

theorem State.armorText_eq_map (c : Nat) : s.armorText i L c = (List.range c).map fun k => armor (s.armorGroup i L k) :=
  List.map_congr_left fun k _ => congrArg armor (State.armorGroup_eq_natOfBits k).symm

@[simp] theorem State.length_armorText (c : Nat) : (s.armorText i L c).length = c := by simp [State.armorText]

/-- The characters depend on the bits of the field alone. -/
theorem State.armorText_congr {s' : State} (agree : ∀ b, i ≤ b → b < i + L → s'.bit b = s.bit b) (c : Nat) :
    s'.armorText i L c = s.armorText i L c := by
  refine List.map_congr_left fun k _ => congrArg (armor ∘ natOfBits) (List.map_congr_left fun j _ => ?_)
  split
  · exact agree _ (by omega) (by omega)
  · rfl

end

/-! ### The outcomes of ARMENC, one equation for each (R150) -/

section
variable {s : State}

theorem exec_armenc_cbufRange (past : 256 < s.op0 + (s.op2 + 5) / 6) :
    exec .armenc s = .next (s.raise .cbufRange 0) := by
  simp [exec, execArmenc, pastCbuf_eq, past]

theorem exec_armenc_bitRange (inside : s.op0 + (s.op2 + 5) / 6 ≤ 256) (past : s.blen < s.op1 + s.op2) :
    exec .armenc s = .next (s.raise .bitRange 0) := by
  simp [exec, execArmenc, pastCbuf_eq, State.pastBlen_eq, Nat.not_lt.mpr inside, past]

theorem exec_armenc_completes (inside : s.op0 + (s.op2 + 5) / 6 ≤ 256) (field : s.op1 + s.op2 ≤ s.blen) :
    exec .armenc s = .next ((s.writeBytes s.op0 (s.armorText s.op1 s.op2 ((s.op2 + 5) / 6))).complete
      (zext32 ((s.op2 + 5) / 6)) (zext32 (6 * ((s.op2 + 5) / 6) - s.op2)) 0 0) := by
  simp [exec, execArmenc, pastCbuf_eq, State.pastBlen_eq, Nat.not_lt.mpr inside, Nat.not_lt.mpr field]

end

/-! ### What ARMENC leaves (R150) -/

/-- `t` holds the armor of the field of `s` in `c` bytes of CBUF. -/
structure Encoded (s t : State) (c : Nat) : Prop where
  completes : Completes s t (BitVec.ofNat 32 c) (BitVec.ofNat 32 (6 * c - s.op2)) 0 0
  bytes : ∀ k < c, t.byte (s.op0 + k) = armor (s.armorGroup s.op1 s.op2 k)
  cbuf : CbufKept s t s.op0 c
  bbuf : BbufKept s t 0 0
  blen : t.blen = s.blen
  wrap : t.wrap = s.wrap

/-- ARMENC of a field inside the bit string whose characters fit in CBUF. -/
theorem exec_armenc_encoded {s : State} {c : Nat} (count : (s.op2 + 5) / 6 = c) (inside : s.op0 + c ≤ 256)
    (field : s.op1 + s.op2 ≤ s.blen) : ∃ t, exec .armenc s = .next t ∧ Encoded s t c := by
  subst count
  refine ⟨_, exec_armenc_completes inside field, ?_⟩
  constructor
  case completes => exact State.complete_spec (by constructor <;> rfl) _ _ _ _
  case bytes =>
    intro k hk
    rw [State.byte_complete, State.byte_writeBytes _ _ _ _ (by simpa using hk)]
    simp [State.armorText_eq_map]
  case cbuf => exact fun b outside => s.byte_writeBytes_outside _ _ b (by simpa using outside)
  case bbuf => exact fun _ _ => rfl
  case blen => rfl
  case wrap => rfl

/-- Settles O14: the characters of the groups are written as one run. -/
theorem armencWritesArmor : Obligations.ArmencWritesArmor := by
  intro s c
  refine ⟨fun past => ⟨_, exec_armenc_cbufRange past, s.raise_spec _ _⟩,
    fun inside past => ⟨_, exec_armenc_bitRange inside past, s.raise_spec _ _⟩, fun inside field => ?_⟩
  obtain ⟨t, encoded, spec⟩ := exec_armenc_encoded (c := c) rfl inside field
  exact ⟨t, encoded, spec.completes, spec.bytes, spec.cbuf, spec.bbuf, spec.blen, spec.wrap⟩

/-- Another bit buffer that agrees on the field changes nothing in how ARMENC ends but itself. -/
theorem exec_armenc_withBits {s : State} {bb : Memory Bool}
    (agree : ∀ b, s.op1 ≤ b → b < s.op1 + s.op2 → { s with bbuf := bb }.bit b = s.bit b) :
    ∃ t, exec .armenc s = .next t ∧ exec .armenc { s with bbuf := bb } = .next { t with bbuf := bb } := by
  by_cases past : 256 < s.op0 + (s.op2 + 5) / 6
  · exact ⟨_, exec_armenc_cbufRange past, exec_armenc_cbufRange past⟩
  have inside := Nat.le_of_not_lt past
  by_cases outside : s.blen < s.op1 + s.op2
  · exact ⟨_, exec_armenc_bitRange inside outside, exec_armenc_bitRange inside outside⟩
  have field := Nat.le_of_not_lt outside
  refine ⟨_, exec_armenc_completes inside field, ?_⟩
  rw [← State.armorText_congr agree]
  exact exec_armenc_completes (s := { s with bbuf := bb }) inside field

/-- Settles O51: the characters of the field are the same in both states. -/
theorem armencReadsOnlyItsBits : Obligations.ArmencReadsOnlyItsBits := by
  intro s t u bb agree ht hu
  obtain ⟨t', ht', hu'⟩ := exec_armenc_withBits agree
  rw [ht] at ht'; cases ht'
  rw [hu] at hu'; cases hu'
  rfl

end Sys2Proof.Machine
end

section
/-! PROOFS of the armor family. Second part: the round trips (O47, O48). -/

namespace Sys2Proof.Machine

/-! ### Groups and their bits (R140, R150) -/

section
variable {s : State} {i L k : Nat}

theorem State.armorGroup_lt (s : State) (i L k : Nat) : s.armorGroup i L k < 64 := by
  simpa [State.armorGroup, fieldSum_six] using
    natOfBits_lt ((List.range 6).map fun j => decide (i + 6 * k + j < i + L) && s.bit (i + 6 * k + j))

/-- Bit `b` of the field stands in group `b / 6`. -/
theorem State.testBit_armorGroup {b : Nat} (hb : b < L) :
    (s.armorGroup i L (b / 6)).testBit (5 - b % 6) = s.bit (i + b) := by
  have inGroup : b % 6 < 6 := Nat.mod_lt b (by decide)
  have bit := testBit_natOfBits ((List.range 6).map fun j =>
    if 6 * (b / 6) + j < L then s.bit (i + 6 * (b / 6) + j) else false) (j := b % 6) (by simpa using inGroup)
  simpa [State.armorGroup_eq_natOfBits, Nat.add_assoc, Nat.div_add_mod, hb] using bit

/-- A group whose bits are those of the 6-bit value `w` is `w`. -/
theorem State.armorGroup_of_bits {w : Nat} (hw : w < 64)
    (h : ∀ j < 6, (if 6 * k + j < L then s.bit (i + 6 * k + j) else false) = w.testBit (5 - j)) :
    s.armorGroup i L k = w := by
  rw [State.armorGroup_eq_natOfBits, List.map_congr_left fun j hj => h j (List.mem_range.mp hj)]
  exact (natOfBits_bitsOfNat 6 w).trans (Nat.mod_eq_of_lt hw)

@[simp] theorem State.armorGroup_issue (s : State) (w a0 a1 a2 : Word) (i L k : Nat) :
    (s.issue w a0 a1 a2).armorGroup i L k = s.armorGroup i L k := rfl

end

/-- Bit `b` of a decoded payload is one of character `b / 6`. -/
theorem Decoded.bit {s t : State} (h : Decoded s t) {b : Nat} (hb : b < 6 * s.op1) :
    t.bit b = (unarmor (s.byte (s.op0 + b / 6))).testBit (5 - b % 6) := by
  have bits := h.bits (b / 6) (by omega) (b % 6) (Nat.mod_lt b (by decide))
  rwa [Nat.div_add_mod] at bits

/-! ### ARMENC, then ARMDEC (R151) -/

/-- Settles O47: the characters are armor, and each decodes to the group it was made of. -/
theorem armorRoundTrip : Obligations.ArmorRoundTrip := by
  intro s d i L fits field
  obtain ⟨c, count⟩ : ∃ c, (L.toNat + 5) / 6 = c := ⟨_, rfl⟩
  rw [count] at fits
  obtain ⟨t, encoded, spec⟩ := exec_armenc_encoded (s := s.issue 0x21 d i L) count fits field
  have chars : t.res0.toNat = c := by rw [spec.completes.res0]; exact toNat_word (by omega)
  have pad : t.res1.toNat = 6 * c - L.toNat := by rw [spec.completes.res1]; exact toNat_word (by simp; omega)
  have group : ∀ k < c, t.byte (d.toNat + k) = armor (s.armorGroup i.toNat L.toNat k) := spec.bytes
  obtain ⟨u, decoded, spec'⟩ := exec_armdec_decoded (s := t.issue 0x20 d t.res0 t.res1) (by simpa [chars])
    (by simp [chars, pad]) fun k hk => by
      simp only [State.op1_issue, chars] at hk
      simpa [group k hk] using isArmor_armor _ (s.armorGroup_lt _ _ k)
  refine ⟨t, u, encoded, spec.completes.err, decoded, spec'.completes.err, ?_, fun b hb => ?_⟩
  · rw [spec'.blen]
    simp only [State.op1_issue, State.op2_issue, chars, pad]
    omega
  · have bit : u.bit b = (unarmor (t.byte (d.toNat + b / 6))).testBit (5 - b % 6) :=
      spec'.bit (by simp only [State.op1_issue, chars]; omega)
    rw [bit, group _ (by omega), unarmor_armor _ (s.armorGroup_lt _ _ _), State.testBit_armorGroup hb]

/-! ### ARMDEC, then ARMENC (R151) -/

/-- Settles O48: the decoded groups, the fill bits of the last one read as 0, are the payload's. -/
theorem payloadRoundTrip : Obligations.PayloadRoundTrip := by
  intro s a n f d x source target short fill payload dropped hx
  have armored : ∀ k < n.toNat, isArmor (s.byte (a.toNat + k)) = true := fun k hk => by
    rw [isArmor_iff]
    have := payload k hk
    omega
  obtain ⟨t, decoded, spec⟩ := exec_armdec_decoded (s := s.issue 0x20 a n f) source fill armored
  have blen : t.blen = 6 * n.toNat - f.toNat := spec.blen
  have bits : ∀ k < n.toNat, ∀ j < 6,
      t.bit (6 * k + j) = (unarmor (s.byte (a.toNat + k))).testBit (5 - j) := spec.bits
  have length : x.toNat = 6 * n.toNat - f.toNat := by rw [hx]; exact toNat_word (by omega)
  obtain ⟨u, encoded, spec'⟩ := exec_armenc_encoded (s := t.issue 0x21 d 0 x) (c := n.toNat)
    (by simp only [State.op2_issue, length]; omega) target (by simp [blen, length])
  refine ⟨t, u, decoded, spec.completes.err, encoded, spec'.completes.err, ?_, fun k hk => ?_⟩
  · simp [spec'.completes.res0]
  · have group : t.armorGroup 0 x.toNat k = unarmor (s.byte (a.toNat + k)) := by
      refine State.armorGroup_of_bits (unarmor_lt _ (armored k hk)) fun j hj => ?_
      split
      · simpa using bits k hk j hj
      · have last : a.toNat + n.toNat - 1 = a.toNat + k := by omega
        exact (last ▸ dropped (5 - j) (by omega)).symm
    have char : u.byte (d.toNat + k) = armor (t.armorGroup 0 x.toNat k) := spec'.bytes k hk
    rw [char, group, armor_unarmor _ (payload k hk)]

end Sys2Proof.Machine
end

section
/-! PROOFS of the framer family. First part: languages of byte strings that are read from the front, and what it means that
a parser decides one: it accepts its strings and fails at the first byte that no string can go on with (R161, R162). -/

namespace Sys2Proof.Machine

/-! ### Languages -/

/-- Which byte strings belong to the language, and with which fields. -/
abbrev Lang := List Byte → Envelope → Prop

namespace Lang

/-- One byte that satisfies `p`, then a string of `L`, which may depend on that byte. -/
def byte (p : Byte → Bool) (L : Byte → Lang) : Lang := fun w e => ∃ b v, w = b :: v ∧ p b = true ∧ L b v e

/-- The byte `b`, then a string of `L`. -/
def lit (b : Byte) (L : Lang) : Lang := byte (· == b) fun _ => L

/-- A byte that satisfies `p` or no byte, then a string of `L`, which may depend on it. -/
def opt (p : Byte → Bool) (L : Option Byte → Lang) : Lang :=
  fun w e => ∃ (o : Option Byte) (v : List Byte), w = o.toList ++ v ∧ (∀ b ∈ o, p b = true) ∧ L o v e

/-- Any number of bytes that satisfy `p`, then a string of `L`, which may depend on the number. -/
def many (p : Byte → Bool) (L : Nat → Lang) : Lang :=
  fun w e => ∃ run v, w = run ++ v ∧ (∀ b ∈ run, p b = true) ∧ L run.length v e

/-- Line ends up to the end of the line, with the fields `e₀` (R160). -/
def eols (e₀ : Envelope) : Lang := fun w e => (∀ b ∈ w, isEol b = true) ∧ e = e₀

@[simp] theorem byte_cons (p : Byte → Bool) (L : Byte → Lang) (b : Byte) (v : List Byte) (e : Envelope) :
    byte p L (b :: v) e ↔ p b = true ∧ L b v e := by
  simp [byte, and_assoc]

@[simp] theorem not_byte_nil (p : Byte → Bool) (L : Byte → Lang) (e : Envelope) : ¬ byte p L [] e := by simp [byte]

@[simp] theorem lit_cons (b : Byte) (L : Lang) (c : Byte) (v : List Byte) (e : Envelope) :
    lit b L (c :: v) e ↔ c = b ∧ L v e := by
  simp [lit]

theorem lit_iff (b : Byte) (L : Lang) (w : List Byte) (e : Envelope) : lit b L w e ↔ ∃ v, w = b :: v ∧ L v e := by
  simp [lit, byte]

@[simp] theorem eols_nil (e₀ e : Envelope) : eols e₀ [] e ↔ e = e₀ := by simp [eols]

@[simp] theorem eols_cons (e₀ : Envelope) (b : Byte) (v : List Byte) (e : Envelope) :
    eols e₀ (b :: v) e ↔ isEol b = true ∧ eols e₀ v e := by
  simp [eols, and_assoc]

/-- The string begins with no byte that satisfies `p`. -/
def Clear (p : Byte → Bool) (w : List Byte) : Prop := ∀ b ∈ w.head?, p b = false

/-- No string of the language begins with a byte that satisfies `p`. -/
def Avoids (L : Lang) (p : Byte → Bool) : Prop := ∀ w e, L w e → Clear p w

theorem lit_avoids {p : Byte → Bool} {b : Byte} (other : p b = false) (L : Lang) : (lit b L).Avoids p := by
  rintro _ _ ⟨c, v, rfl, hc, -⟩ d hd
  obtain rfl := Option.some.inj hd
  rwa [beq_iff_eq.mp hc]

/-- A run of `p` bytes is fixed by the string where what follows does not begin with one. -/
theorem run_unique {p : Byte → Bool} {run run' v v' : List Byte} (all : ∀ b ∈ run, p b = true)
    (all' : ∀ b ∈ run', p b = true) (clear : Clear p v) (clear' : Clear p v') (h : run ++ v = run' ++ v') :
    run = run' ∧ v = v' := by
  have taken : ∀ {r u : List Byte}, (∀ b ∈ r, p b = true) → Clear p u → (r ++ u).takeWhile p = r := by
    intro r u hr hu
    rw [List.takeWhile_append_of_pos hr]
    cases u with
    | nil => simp
    | cons b u => simp [hu b rfl]
  obtain rfl : run = run' := by rw [← taken all clear, h, taken all' clear']
  exact ⟨rfl, List.append_cancel_left h⟩

/-! ### Where a string cannot go on (R162) -/

/-- The string can be completed to one of the language. -/
def Continues (L : Lang) (start : List Byte) : Prop := ∃ rest e, L (start ++ rest) e

/-- `w` is not in the language, and `k` is the offset of its first byte that cannot continue to a string of the language,
or its length if it ended. -/
structure FailsAt (L : Lang) (w : List Byte) (k : Nat) : Prop where
  rejects : ∀ e, ¬ L w e
  inside : k ≤ w.length
  continues : L.Continues (w.take k)
  stops : k < w.length → ¬ L.Continues (w.take (k + 1))

theorem Clear.take_append {p : Byte → Bool} {w : List Byte} (clear : Clear p w) {k : Nat} (hk : k < w.length)
    (rest : List Byte) : Clear p (w.take (k + 1) ++ rest) := by
  cases w with
  | nil => cases hk
  | cons b v => exact clear

/-- The failure of what follows `run` is the failure of the whole, if `L` goes on after `run` as `L'`. -/
theorem FailsAt.after {L L' : Lang} {p : Byte → Bool} (run : List Byte) {w : List Byte} {k : Nat} (clear : Clear p w)
    (joins : ∀ v e, L' v e → L (run ++ v) e) (splits : ∀ v e, Clear p v → L (run ++ v) e → L' v e)
    (fails : L'.FailsAt w k) : L.FailsAt (run ++ w) (run.length + k) where
  rejects e h := fails.rejects e (splits w e clear h)
  inside := by simpa using fails.inside
  continues := by
    obtain ⟨rest, e, h⟩ := fails.continues
    exact ⟨rest, e, by simpa [List.take_length_add_append] using joins _ e h⟩
  stops hk := by
    rintro ⟨rest, e, h⟩
    have shorter : k < w.length := by simpa using hk
    refine fails.stops shorter ⟨rest, e, splits _ e (clear.take_append shorter rest) ?_⟩
    simpa [Nat.add_assoc, List.take_length_add_append] using h

/-! ### Parsers that decide a language -/

/-- The answer a parser that stands at offset `pos` should give about the rest `w` of the line. -/
def Answers (L : Lang) (pos : Nat) (w : List Byte) : Except Nat Envelope → Prop
  | .ok e => ∀ e', L w e' ↔ e' = e
  | .error i => ∃ k, i = pos + k ∧ L.FailsAt w k

/-- The right answer about what follows `run` is the right answer about the whole. -/
theorem Answers.after {L L' : Lang} {p : Byte → Bool} (run : List Byte) {w : List Byte} {pos : Nat}
    {r : Except Nat Envelope} (clear : Clear p w) (joins : ∀ v e, L' v e → L (run ++ v) e)
    (splits : ∀ v e, Clear p v → L (run ++ v) e → L' v e) (h : L'.Answers (pos + run.length) w r) :
    L.Answers pos (run ++ w) r := by
  match r, h with
  | .ok e, h => exact fun e' => ⟨fun x => (h e').mp (splits w e' clear x), fun x => joins w e' ((h e').mpr x)⟩
  | .error i, ⟨k, hi, fails⟩ => exact ⟨run.length + k, by omega, fails.after run clear joins splits⟩

/-- After one byte `b` that `L` can begin with, `L` goes on as `L'`. -/
theorem Answers.afterByte {L L' : Lang} {b : Byte} {v : List Byte} {pos : Nat} {r : Except Nat Envelope}
    (goesOn : ∀ u e, L (b :: u) e ↔ L' u e) (h : L'.Answers (pos + 1) v r) : L.Answers pos (b :: v) r :=
  .after (p := fun _ => false) [b] (fun _ _ => rfl) (fun u e => (goesOn u e).mpr) (fun u e _ => (goesOn u e).mp) h

/-- The line has ended where a byte is needed. -/
theorem Answers.ended {L : Lang} {pos : Nat} (live : L.Continues []) (empty : ∀ e, ¬ L [] e) :
    L.Answers pos [] (.error pos) :=
  ⟨0, rfl, empty, Nat.le_refl _, live, nofun⟩

/-- No string of the language begins with the next byte. -/
theorem Answers.stuck {L : Lang} {b : Byte} {v : List Byte} {pos : Nat} (live : L.Continues [])
    (stuck : ∀ u e, ¬ L (b :: u) e) : L.Answers pos (b :: v) (.error pos) :=
  ⟨0, rfl, stuck v, Nat.zero_le _, live, fun _ ⟨rest, e, h⟩ => stuck rest e h⟩

/-- `parse` decides `L` from offset `pos` on, and some string belongs to `L`. -/
structure Decides (L : Lang) (pos : Nat) (parse : List Byte → Except Nat Envelope) : Prop where
  live : L.Continues []
  answers : ∀ w, L.Answers pos w (parse w)

/-- `expect` reads one byte (R161). -/
theorem Decides.expect {p : Byte → Bool} {L : Byte → Lang} {pos : Nat} {k : Cursor → Except Nat Envelope} {last : Byte}
    (possible : ∃ b, p b = true) (rest : ∀ b, p b = true → Decides (L b) (pos + 1) fun w => k ⟨pos + 1, b, w⟩) :
    Decides (byte p L) pos fun w => Cursor.expect ⟨pos, last, w⟩ p >>= k := by
  have live : (byte p L).Continues [] := by
    obtain ⟨b, hb⟩ := possible
    obtain ⟨v, e, h⟩ := (rest b hb).live
    exact ⟨b :: v, e, b, v, rfl, hb, h⟩
  refine ⟨live, fun w => ?_⟩
  cases w with
  | nil => exact .ended live (by simp)
  | cons b v =>
    by_cases hb : p b = true
    · simp only [Cursor.expect, hb, if_true]
      exact .afterByte (by simp [hb]) ((rest b hb).answers v)
    · simp only [Cursor.expect, hb]
      exact .stuck live (by simp [hb])

/-- `expect` of one given byte. -/
theorem Decides.lit {b : Byte} {L : Lang} {pos : Nat} {k : Cursor → Except Nat Envelope} {last : Byte}
    (rest : Decides L (pos + 1) fun w => k ⟨pos + 1, b, w⟩) :
    Decides (lit b L) pos fun w => Cursor.expect ⟨pos, last, w⟩ (· == b) >>= k :=
  .expect ⟨b, beq_self_eq_true b⟩ fun _ hc => beq_iff_eq.mp hc ▸ rest

/-- The optional digit is read where there is one, so what follows must not begin with a digit (R161). -/
theorem Decides.optDigit {L : Option Byte → Lang} {pos : Nat} {k : Option Nat → Cursor → Except Nat Envelope}
    {last : Byte} (avoids : (L none).Avoids isDigit)
    (rest : ∀ o last, Decides (L o) (pos + o.toList.length) fun w => k (o.map digitVal) ⟨pos + o.toList.length, last, w⟩) :
    Decides (opt isDigit L) pos
      fun w => k (Cursor.optDigit ⟨pos, last, w⟩).1 (Cursor.optDigit ⟨pos, last, w⟩).2 := by
  have live : (opt isDigit L).Continues [] := by
    obtain ⟨v, e, h⟩ := (rest none last).live
    exact ⟨v, e, none, v, rfl, nofun, h⟩
  have absent : ∀ w, Clear isDigit w → (opt isDigit L).Answers pos w (k none ⟨pos, last, w⟩) := by
    intro w clear
    refine .after [] clear (fun v e h => ⟨none, v, rfl, nofun, h⟩) ?_ ((rest none last).answers w)
    rintro _ e hv ⟨_ | b, v, rfl, digit, h⟩
    · exact h
    · simpa [hv b rfl] using digit b rfl
  refine ⟨live, fun w => ?_⟩
  cases w with
  | nil => exact absent [] nofun
  | cons b v =>
    by_cases hb : isDigit b = true
    · simp only [Cursor.optDigit, Cursor.expect, hb, if_true]
      refine .afterByte (fun u e => ⟨?_, fun h => ⟨some b, u, rfl, by simpa using hb, h⟩⟩) ((rest (some b) b).answers v)
      rintro ⟨_ | c, v', hu, -, h⟩
      · obtain rfl : b :: u = v' := hu
        simpa [hb] using avoids _ e h b rfl
      · obtain ⟨rfl, rfl⟩ := List.cons.inj hu
        exact h
    · simp only [Cursor.optDigit, Cursor.expect, hb]
      exact absent _ (by simpa [Clear] using hb)

/-- `skip` reads the whole run of `p` bytes, so what follows must not begin with such a byte (R161). -/
theorem Decides.skip {p : Byte → Bool} {L : Nat → Lang} {pos : Nat} {k : Cursor → Except Nat Envelope} {last : Byte}
    (avoids : ∀ m, (L m).Avoids p) (rest : ∀ m, Decides (L m) (pos + m) fun w => k ⟨pos + m, last, w⟩) :
    Decides (many p L) pos fun w => k (Cursor.skip ⟨pos, last, w⟩ p) := by
  refine ⟨?_, fun w => ?_⟩
  · obtain ⟨v, e, h⟩ := (rest 0).live
    exact ⟨v, e, [], v, rfl, nofun, h⟩
  · have all : ∀ b ∈ w.takeWhile p, p b = true := fun b => List.mem_takeWhile_imp
    have clear : Clear p (w.dropWhile p) := fun b hb => by
      simpa [Option.mem_def.mp hb] using List.head?_dropWhile_not p w
    have whole : (many p L).Answers pos (w.takeWhile p ++ w.dropWhile p) (k (Cursor.skip ⟨pos, last, w⟩ p)) := by
      refine .after _ clear (fun v e h => ⟨_, v, rfl, all, h⟩) (fun v e hv => ?_) ((rest _).answers _)
      rintro ⟨run, u, hw, hrun, h⟩
      obtain ⟨same, rfl⟩ := run_unique all hrun hv (avoids _ u e h) hw
      rwa [same]
    rwa [List.takeWhile_append_dropWhile] at whole

/-- The line ends are read up to the end of the line (R161). -/
theorem Decides.expectEols {pos : Nat} (e₀ : Envelope) :
    Decides (eols e₀) pos fun w => expectEols pos w >>= fun _ => .ok e₀ := by
  have live : (eols e₀).Continues [] := ⟨[], e₀, nofun, rfl⟩
  refine ⟨live, fun w => ?_⟩
  induction w generalizing pos with
  | nil => exact eols_nil e₀
  | cons b v ih =>
    by_cases hb : isEol b = true
    · simp only [Machine.expectEols, hb, if_true]
      exact .afterByte (by simp [hb]) ih
    · simp only [Machine.expectEols, hb]
      exact .stuck live (by simp [hb])

end Lang

end Sys2Proof.Machine
end

section
/-! PROOFS of the framer family. Second part: the line grammar as a language, which `parseLine` decides (R160 - R162). -/

namespace Sys2Proof.Machine

open Lang

/-! ### The stages of `parseLine` (R161) -/

/-- `parseLine` behind the payload, with the fields read so far in `e`. -/
def parseEnd (e : Envelope) (c : Cursor) : Except Nat Envelope := do
  let d ← c.expect (· == 0x2C)
  let f ← d.expect isDigit
  let s ← f.expect (· == 0x2A)
  let hi ← s.expect isHexu
  let lo ← hi.expect isHexu
  expectEols lo.pos lo.rest
  .ok { e with
    payloadLen := c.pos - e.payloadAt, fill := digitVal f.last, star := s.pos - 1
    received := 16 * hexval hi.last + hexval lo.last }

/-- The fields in front of the payload, with 0 for those behind it. -/
def openingFields (talker total frag : Nat) (seq : Option Nat) (chan : Byte) (payloadAt : Nat) : Envelope where
  talker := talker
  total := total
  frag := frag
  seq := seq
  chan := if chan == 0x42 then 1 else 0
  payloadAt := payloadAt
  payloadLen := 0
  fill := 0
  star := 0
  received := 0

/-- `parseLine` behind the sequence id. -/
def parseBody (talker total frag : Nat) (seq : Option Nat) (c : Cursor) : Except Nat Envelope := do
  let c ← c.expect (· == 0x2C)
  let ch ← c.expect (isEither 0x41 0x42)
  let c ← ch.expect (· == 0x2C)
  parseEnd (openingFields talker total frag seq ch.last c.pos) (c.skip isPchar)

theorem parseLine_eq (line : List Byte) : parseLine line =
    parseTalker ⟨0, 0, line⟩ >>= fun t => parseDigitComma t.2 >>= fun n => parseDigitComma n.2 >>= fun k =>
      parseBody t.1 n.1 k.1 k.2.optDigit.1 k.2.optDigit.2 := rfl

/-! ### The language of each stage (R160) -/

/-- `',' digit '*' hexu hexu eol*` behind a payload of `m` bytes. -/
def endLang (e : Envelope) (m : Nat) : Lang :=
  lit 0x2C <| byte isDigit fun fill => lit 0x2A <| byte isHexu fun hi => byte isHexu fun lo =>
    eols { e with
      payloadLen := m, fill := digitVal fill, star := e.payloadAt + m + 2
      received := 16 * hexval hi + hexval lo }

/-- `',' channel ',' payload` and the end of the line, at offset `pos`. -/
def bodyLang (talker total frag : Nat) (seq : Option Nat) (pos : Nat) : Lang :=
  lit 0x2C <| byte (isEither 0x41 0x42) fun chan => lit 0x2C <|
    many isPchar (endLang (openingFields talker total frag seq chan (pos + 3)))

/-- `'!' talker ','`, where the rest may depend on which talker it is. -/
def talkerLang (L : Nat → Lang) : Lang :=
  lit 0x21 <| byte (isEither 0x41 0x61) fun _ => byte (isEither 0x49 0x69) fun _ => byte (isEither 0x56 0x76) fun _ =>
    byte (isEither 0x44 0x64) fun _ => byte (fun b => isEither 0x4D 0x6D b || isEither 0x4F 0x6F b) fun o =>
      lit 0x2C (L (if isEither 0x4F 0x6F o then 1 else 0))

/-- `digit ','`. -/
def digitCommaLang (L : Nat → Lang) : Lang := byte isDigit fun d => lit 0x2C (L (digitVal d))

/-- The whole line. -/
def lineLang : Lang :=
  talkerLang fun talker => digitCommaLang fun total => digitCommaLang fun frag => opt isDigit fun seq =>
    bodyLang talker total frag (seq.map digitVal) (11 + seq.toList.length)

/-! ### Each stage decides its language

After each byte, `dsimp only` reads the offset and the byte off the new cursor, so that what is left to parse is a function of
the rest of the line alone. -/

theorem parseEnd_decides (e : Envelope) (m : Nat) (last : Byte) :
    Decides (endLang e m) (e.payloadAt + m) fun w => parseEnd e ⟨e.payloadAt + m, last, w⟩ := by
  simp only [parseEnd, endLang, Nat.add_sub_cancel_left]
  refine .lit <| .expect ⟨0x30, rfl⟩ fun fill _ => ?_
  dsimp only
  refine .lit ?_
  dsimp only
  refine .expect ⟨0x30, rfl⟩ fun hi _ => ?_
  dsimp only
  exact .expect ⟨0x30, rfl⟩ fun lo _ => .expectEols _

theorem parseBody_decides (talker total frag : Nat) (seq : Option Nat) (pos : Nat) (last : Byte) :
    Decides (bodyLang talker total frag seq pos) pos fun w => parseBody talker total frag seq ⟨pos, last, w⟩ := by
  refine .lit <| .expect ⟨0x41, rfl⟩ fun chan _ => ?_
  dsimp only
  refine .lit ?_
  dsimp only
  exact .skip (fun _ => lit_avoids rfl _) fun m => parseEnd_decides _ m _

theorem parseTalker_decides {L : Nat → Lang} {pos : Nat} {k : Nat × Cursor → Except Nat Envelope} {last : Byte}
    (rest : ∀ t, Decides (L t) (pos + 7) fun w => k (t, ⟨pos + 7, 0x2C, w⟩)) :
    Decides (talkerLang L) pos fun w => parseTalker ⟨pos, last, w⟩ >>= k := by
  simp only [parseTalker, bind_assoc]
  refine .lit <| .expect ⟨0x41, rfl⟩ fun _ _ => .expect ⟨0x49, rfl⟩ fun _ _ => .expect ⟨0x56, rfl⟩ fun _ _ =>
    .expect ⟨0x44, rfl⟩ fun _ _ => .expect ⟨0x4D, rfl⟩ fun _ _ => ?_
  dsimp only
  exact .lit (pos := pos + 6) (k := fun c => k (_, c)) (rest _)

theorem parseDigitComma_decides {L : Nat → Lang} {pos : Nat} {k : Nat × Cursor → Except Nat Envelope} {last : Byte}
    (rest : ∀ d, Decides (L d) (pos + 2) fun w => k (d, ⟨pos + 2, 0x2C, w⟩)) :
    Decides (digitCommaLang L) pos fun w => parseDigitComma ⟨pos, last, w⟩ >>= k := by
  simp only [parseDigitComma, bind_assoc]
  refine .expect ⟨0x30, rfl⟩ fun _ _ => ?_
  dsimp only
  exact .lit (rest _)

theorem parseLine_decides : Decides lineLang 0 parseLine := by
  rw [funext parseLine_eq]
  refine parseTalker_decides fun talker => ?_
  dsimp only
  refine parseDigitComma_decides fun total => ?_
  dsimp only
  refine parseDigitComma_decides fun frag => ?_
  exact .optDigit (lit_avoids rfl _) fun _ _ => parseBody_decides _ _ _ _ _ _

/-! ### The language of the whole line is the grammar's (R160) -/

theorem isDigit_iff {b : Byte} : isDigit b = true ↔ LineDigit b := by simp [isDigit, LineDigit]

theorem isHexu_iff {b : Byte} : isHexu b = true ↔ LineHex b := by simp [isHexu, LineHex, isDigit_iff]

theorem isPchar_iff {b : Byte} : isPchar b = true ↔ LinePayloadByte b := by
  simp [isPchar, LinePayloadByte, and_assoc]

theorem isEol_iff {b : Byte} : isEol b = true ↔ b ∈ [(0x0D : Byte), 0x0A] := by simp [isEol]

theorem isEither_iff {x y b : Byte} : isEither x y b = true ↔ b ∈ [x, y] := by simp [isEither]

/-- A sequence id of at most one byte is an optional byte. -/
theorem exists_toList {α : Type} {l : List α} (h : l.length ≤ 1) : ∃ o : Option α, l = o.toList := by
  match l, h with
  | [], _ => exact ⟨none, rfl⟩
  | [a], _ => exact ⟨some a, rfl⟩

/-- The parts of a matching line are read one after another. -/
theorem lineLang_of_isLine {w : List Byte} {e : Envelope} (h : IsLine w e) : lineLang w e := by
  obtain ⟨t₁, t₂, t₃, t₄, t₅, total, frag, chan, fill, h₁, h₂, seq, payload, ends, rfl, ht₁, ht₂, ht₃, ht₄, ht₅, htotal,
    hfrag, hseq, hdigit, hchan, hpayload, hfill, hh₁, hh₂, hends, rfl⟩ := h
  obtain ⟨seq, rfl⟩ := exists_toList hseq
  have talker : t₅ ∈ [(0x4D : Byte), 0x6D] ∨ t₅ ∈ [(0x4F : Byte), 0x6F] := by simpa [or_assoc] using ht₅
  simp only [lineLang, talkerLang, digitCommaLang, List.cons_append, List.nil_append, List.append_assoc, lit_cons, byte_cons,
    Bool.or_eq_true, isDigit_iff, htotal, hfrag, isEither_iff, ht₁, ht₂, ht₃, ht₄, talker, true_and]
  refine ⟨seq, _, rfl, fun b hb => isDigit_iff.mpr (hdigit b (by simpa using hb)), ?_⟩
  simp only [bodyLang, lit_cons, byte_cons, isEither_iff, hchan, true_and]
  refine ⟨payload, _, rfl, fun b hb => isPchar_iff.mpr (hpayload b hb), ?_⟩
  simp only [endLang, lit_cons, byte_cons, isDigit_iff, isHexu_iff, hfill, hh₁, hh₂, true_and]
  refine ⟨fun b hb => isEol_iff.mpr (hends b hb), ?_⟩
  simp only [openingFields, digitVal, hexval, hexDigitValue, beq_iff_eq, Envelope.mk.injEq, true_and, and_true]
  exact ⟨by cases seq <;> rfl, by omega, by omega⟩

/-- The bytes and runs a string of the language is made of are the parts of the line. -/
theorem isLine_of_lineLang {w : List Byte} {e : Envelope} (h : lineLang w e) : IsLine w e := by
  simp only [lineLang, talkerLang, digitCommaLang, lit_iff, byte, opt, isEither_iff, Bool.or_eq_true, isDigit_iff] at h
  obtain ⟨_, rfl, t₁, _, rfl, ht₁, t₂, _, rfl, ht₂, t₃, _, rfl, ht₃, t₄, _, rfl, ht₄, t₅, _, rfl, ht₅, _, rfl,
    total, _, rfl, htotal, _, rfl, frag, _, rfl, hfrag, _, rfl, seq, _, rfl, hseq, h⟩ := h
  simp only [bodyLang, lit_iff, byte, many, isEither_iff, isPchar_iff] at h
  obtain ⟨_, rfl, chan, _, rfl, hchan, _, rfl, payload, _, rfl, hpayload, h⟩ := h
  simp only [endLang, lit_iff, byte, eols, isDigit_iff, isHexu_iff, isEol_iff] at h
  obtain ⟨_, rfl, fill, _, rfl, hfill, _, rfl, h₁, _, rfl, hh₁, h₂, ends, rfl, hh₂, hends, rfl⟩ := h
  refine ⟨t₁, t₂, t₃, t₄, t₅, total, frag, chan, fill, h₁, h₂, seq.toList, payload, ends, by simp, ht₁, ht₂, ht₃, ht₄,
    by simpa [or_assoc] using ht₅, htotal, hfrag, by cases seq <;> simp, by simpa using hseq, hchan, hpayload, hfill,
    hh₁, hh₂, hends, ?_⟩
  simp only [openingFields, digitVal, hexval, hexDigitValue, beq_iff_eq, Envelope.mk.injEq, true_and, and_true]
  exact ⟨by cases seq <;> rfl, by omega, by omega⟩

theorem lineLang_iff {w : List Byte} {e : Envelope} : lineLang w e ↔ IsLine w e :=
  ⟨isLine_of_lineLang, lineLang_of_isLine⟩

theorem continues_lineLang_iff {start : List Byte} : lineLang.Continues start ↔ CanContinue start := by
  simp only [Continues, CanContinue, lineLang_iff]

/-! ### The answers of `parseLine` (R161, R162) -/

/-- A matching line is accepted with its fields. -/
theorem parseLine_of_isLine {w : List Byte} {e : Envelope} (h : IsLine w e) : parseLine w = .ok e := by
  have answer := parseLine_decides.answers w
  cases hp : parseLine w with
  | ok e' =>
    rw [hp] at answer
    rw [(answer e).mp (lineLang_iff.mpr h)]
  | error i =>
    rw [hp] at answer
    obtain ⟨k, -, fails⟩ := answer
    exact absurd (lineLang_iff.mpr h) (fails.rejects e)

/-- A line that does not match is rejected at its first byte that cannot continue a match. -/
theorem parseLine_fails {w : List Byte} (noMatch : ¬ ∃ e, IsLine w e) :
    ∃ i, parseLine w = .error i ∧ lineLang.FailsAt w i := by
  have answer := parseLine_decides.answers w
  cases hp : parseLine w with
  | ok e =>
    rw [hp] at answer
    exact absurd ⟨e, lineLang_iff.mp ((answer e).mpr rfl)⟩ noMatch
  | error i =>
    rw [hp] at answer
    obtain ⟨k, rfl, fails⟩ := answer
    exact ⟨_, rfl, by rwa [Nat.zero_add]⟩

end Sys2Proof.Machine
end

section
/-! PROOFS of the framer family. Third part: what PARSE and CKSUM answer (O15, O16, O17, O49, O52). -/

namespace Sys2Proof.Machine

/-! ### The result words of PARSE (R161, R162) -/

/-- A field placed above the bits of `a` adds to `a`. -/
theorem or_shiftLeft_eq_add {x a b k : Nat} (below : x = a) (h : a < 2 ^ k) : x ||| b <<< k = a + b * 2 ^ k := by
  rw [below, Nat.or_comm, ← Nat.shiftLeft_add_eq_or_of_lt h, Nat.shiftLeft_eq, Nat.add_comm]

theorem hexDigitValue_lt {b : Byte} (h : LineHex b) : hexDigitValue b < 16 := by
  unfold LineHex LineDigit at h
  unfold hexDigitValue
  split <;> omega

/-- The fields of a matching line of `n` bytes fit their places in RES1..RES3, and `*` stands inside the line. -/
structure Envelope.Fits (e : Envelope) (n : Nat) : Prop where
  total : e.total < 16
  frag : e.frag < 16
  seq : e.seq.getD 0 < 16
  chan : e.chan < 2
  talker : e.talker < 2
  received : e.received < 256
  payloadAt : e.payloadAt ≤ n
  starPos : 0 < e.star
  star : e.star < n

theorem IsLine.fits {line : List Byte} {e : Envelope} (h : IsLine line e) : e.Fits line.length := by
  obtain ⟨t₁, t₂, t₃, t₄, t₅, total, frag, chan, fill, h₁, h₂, seq, payload, eols, rfl, -, -, -, -, -, htotal, hfrag, -,
    hseq, -, -, -, hh₁, hh₂, -, rfl⟩ := h
  have v₁ := hexDigitValue_lt hh₁
  have v₂ := hexDigitValue_lt hh₂
  unfold LineDigit at htotal hfrag hseq
  constructor
  case seq =>
    cases seq with
    | nil => simp
    | cons d _ =>
      have := hseq d (by simp)
      simp
      omega
  case chan | talker => dsimp only; split <;> decide
  all_goals simp only [List.length_append, List.length_cons, List.length_nil]; omega

theorem Envelope.Fits.fieldsWord_eq {e : Envelope} {n : Nat} (h : e.Fits n) : e.fieldsWord = BitVec.ofNat 32
    (e.total + e.frag * 2 ^ 4 + (e.seq.getD 0) * 2 ^ 8 + e.seq.isSome.toNat * 2 ^ 12 + e.chan * 2 ^ 13 + e.talker * 2 ^ 14
      + e.fill * 2 ^ 16) := by
  obtain ⟨total, frag, seq, chan, talker, -, -, -, -⟩ := h
  have present := e.seq.isSome.toNat_le
  refine congrArg (BitVec.ofNat 32) ?_
  iterate 6 refine or_shiftLeft_eq_add ?_ (by omega)
  rfl

theorem Envelope.Fits.payloadWord_eq {e : Envelope} {n a : Nat} (h : e.Fits n) (inside : a + n ≤ 256) :
    e.payloadWord a = BitVec.ofNat 32 (a + e.payloadAt + e.payloadLen * 2 ^ 16) := by
  have := h.payloadAt
  exact congrArg (BitVec.ofNat 32) (or_shiftLeft_eq_add rfl (by omega))

theorem Envelope.Fits.checksumWord_eq {e : Envelope} {n cx : Nat} (h : e.Fits n) (byte : cx < 256) :
    e.checksumWord cx = BitVec.ofNat 32 (cx + e.received * 2 ^ 8 + (if cx = e.received then 2 ^ 16 else 0)) := by
  have := h.received
  have flag : (if cx = e.received then 2 ^ 16 else 0) = (if cx = e.received then 1 else 0) * 2 ^ 16 := by
    split <;> rfl
  rw [flag]
  exact congrArg (BitVec.ofNat 32) (or_shiftLeft_eq_add (or_shiftLeft_eq_add rfl (by omega)) (by omega))

/-- The low byte of RES3 is the computed checksum (R162). -/
theorem Envelope.Fits.checksumWord_mod {e : Envelope} {n cx : Nat} (h : e.Fits n) (byte : cx < 256) :
    (e.checksumWord cx).toNat % 256 = cx := by
  have := h.received
  rw [h.checksumWord_eq byte, toNat_word (by split <;> omega)]
  split <;> omega

/-- The bytes between `!` and `*` are those from `a + 1` on (R163). -/
theorem State.lineChecksum_readBytes (s : State) {a n star : Nat} (h : star ≤ n) :
    lineChecksum (s.readBytes a n) star = xorBytes (s.readBytes (a + 1) (star - 1)) := by
  refine congrArg xorBytes (List.ext_getElem (by simp; omega) fun k _ _ => ?_)
  simp [State.readBytes, Nat.add_assoc, Nat.add_comm 1]

/-- A run of bytes reads as before where nothing is stored. -/
theorem StoresNothing.readBytes_eq {s t : State} (h : StoresNothing s t) (a n : Nat) :
    t.readBytes a n = s.readBytes a n :=
  List.map_congr_left fun _ _ => h.cbuf _ (.inr (Nat.zero_le _))

/-! ### The outcomes of PARSE, one equation for each (R161) -/

section
variable {s : State}

theorem exec_parse_cbufRange (past : 256 < s.op0 + s.op1) : exec .parse s = .next (s.raise .cbufRange 0) := by
  simp [exec, execParse, pastCbuf_eq, past]

section
variable (inside : s.op0 + s.op1 ≤ 256)
include inside

theorem exec_parse_malformed {i : Nat} (fails : parseLine (s.readBytes s.op0 s.op1) = .error i) :
    exec .parse s = .next (s.complete (BitVec.ofNat 32 (1 ||| i <<< 16)) 0 0 0) := by
  simp [exec, execParse, pastCbuf_eq, Nat.not_lt.mpr inside, fails]

theorem exec_parse_matched {e : Envelope} {cx : Nat} (parsed : parseLine (s.readBytes s.op0 s.op1) = .ok e)
    (checksum : (lineChecksum (s.readBytes s.op0 s.op1) e.star).toNat = cx) :
    exec .parse s = .next (s.complete (if cx ≠ e.received ∧ s.latchedCken = true then 2 else 0) e.fieldsWord
      (e.payloadWord s.op0) (e.checksumWord cx)) := by
  simp [exec, execParse, pastCbuf_eq, Nat.not_lt.mpr inside, parsed, checksum]

/-- PARSE of a line that matches the grammar. -/
theorem exec_parse_reports {e : Envelope} {cx : Byte} (line : IsLine (s.readBytes s.op0 s.op1) e)
    (checksum : xorBytes (s.readBytes (s.op0 + 1) (e.star - 1)) = cx) :
    ∃ t, exec .parse s = .next t ∧ Completes s t (if cx.toNat ≠ e.received ∧ s.latchedCken = true then 2 else 0)
      e.fieldsWord (e.payloadWord s.op0) (e.checksumWord cx.toNat) ∧ StoresNothing s t := by
  have star : e.star ≤ s.op1 := by simpa using line.fits.star.le
  rw [← s.lineChecksum_readBytes star] at checksum
  exact ⟨_, exec_parse_matched inside (parseLine_of_isLine line) (congrArg BitVec.toNat checksum),
    State.complete_spec (EngineKeeps.refl s) _ _ _ _, s.complete_storesNothing _ _ _ _⟩

end

/-! ### The outcomes of CKSUM (R170) -/

theorem exec_cksum_cbufRange (past : 256 < s.op0 + s.op1) : exec .cksum s = .next (s.raise .cbufRange 0) := by
  simp [exec, execCksum, pastCbuf_eq, past]

theorem exec_cksum_completes (inside : s.op0 + s.op1 ≤ 256) {x : Byte} (xor : xorBytes (s.readBytes s.op0 s.op1) = x) :
    exec .cksum s = .next (s.complete (x.setWidth 32) (BitVec.ofNat 32 (hexdig (x.toNat / 16)))
      (BitVec.ofNat 32 (hexdig (x.toNat % 16))) 0) := by
  simp [exec, execCksum, pastCbuf_eq, Nat.not_lt.mpr inside, xor, zext32]

end

/-- XOR is associative and commutative, so the order of the fold does not matter (R170). -/
theorem xorBytes_eq_foldr (bs : List Byte) : xorBytes bs = bs.foldr (· ^^^ ·) 0 := List.foldl_eq_foldr

/-! ### The obligations -/

/-- Settles O15: the parser accepts the matching line with its fields, which do not overlap in the result words. -/
theorem parseReportsMatchingLine : Obligations.ParseReportsMatchingLine := by
  intro s
  refine ⟨fun past => ⟨_, exec_parse_cbufRange past, s.raise_spec _ _⟩, fun e inside line => ?_⟩
  have fits : e.Fits s.op1 := by simpa using line.fits
  obtain ⟨t, parsed, ends, stores⟩ := exec_parse_reports inside line rfl
  rw [fits.fieldsWord_eq, fits.payloadWord_eq inside, fits.checksumWord_eq (BitVec.isLt _)] at ends
  exact ⟨t, parsed, ends, stores⟩

/-- Settles O16: the parser rejects the line, and at the first byte that cannot continue a match. -/
theorem parseReportsFailureIndex : Obligations.ParseReportsFailureIndex := by
  intro s inside noMatch
  obtain ⟨i, answer, fails⟩ := parseLine_fails noMatch
  refine ⟨_, i, exec_parse_malformed inside answer, ?_, s.complete_storesNothing _ _ _ _, by simpa using fails.inside,
    ?_, fun before => ?_⟩
  · rw [or_shiftLeft_eq_add rfl (by decide)]
    exact State.complete_spec (EngineKeeps.refl s) _ _ _ _
  · exact continues_lineLang_iff.mp fails.continues
  · exact fun goesOn => fails.stops (by simpa using before) (continues_lineLang_iff.mpr goesOn)

/-- Settles O17: the left fold of the model is the right fold of the statement. -/
theorem cksumXorsBytes : Obligations.CksumXorsBytes := by
  intro s
  exact ⟨fun past => ⟨_, exec_cksum_cbufRange past, s.raise_spec _ _⟩,
    fun inside => ⟨_, exec_cksum_completes inside (xorBytes_eq_foldr _), State.complete_spec (EngineKeeps.refl s) _ _ _ _,
      s.complete_storesNothing _ _ _ _⟩⟩

/-- Settles O49: both commands fold the same bytes, which PARSE leaves as they are. -/
theorem cksumGivesSentenceChecksum : Obligations.CksumGivesSentenceChecksum := by
  intro s a n x y e inside line
  have fits : e.Fits n.toNat := by simpa using line.fits
  have starPos := fits.starPos
  have starInside := fits.star
  have start : (BitVec.ofNat 32 (a.toNat + 1)).toNat = a.toNat + 1 := toNat_word (by omega)
  have length : (BitVec.ofNat 32 (e.star - 1)).toNat = e.star - 1 := toNat_word (by omega)
  obtain ⟨cx, checksum⟩ : ∃ cx, xorBytes (s.readBytes (a.toNat + 1) (e.star - 1)) = cx := ⟨_, rfl⟩
  obtain ⟨t, parsed, ends, stores⟩ := exec_parse_reports (s := s.issue 0x30 a n x) inside line checksum
  refine ⟨t, _, parsed, ends.err, exec_cksum_completes (x := cx) ?_ ?_, rfl, ?_⟩
  · simp only [State.op0_issue, State.op1_issue, start, length]
    omega
  · simp only [State.op0_issue, State.op1_issue, start, length]
    exact (congrArg xorBytes (stores.readBytes_eq _ _)).trans checksum
  · rw [ends.res3, fits.checksumWord_mod cx.isLt]
    exact BitVec.toNat_setWidth_of_le (by decide)

/-- Settles O52: the two states parse the same line with the same operands. -/
theorem parseDependsOnItsLineOnly : Obligations.ParseDependsOnItsLineOnly := by
  intro s s' t t' latch bytes ht ht'
  have op0 : s'.op0 = s.op0 := by rw [State.op0, State.op0, latch]
  have op1 : s'.op1 = s.op1 := by rw [State.op1, State.op1, latch]
  have cken : s'.latchedCken = s.latchedCken := by rw [State.latchedCken, State.latchedCken, latch]
  have line : s'.readBytes s'.op0 s'.op1 = s.readBytes s.op0 s.op1 := by
    rw [op0, op1]
    exact List.map_congr_left fun k hk => (bytes k (List.mem_range.mp hk)).symm
  by_cases past : 256 < s.op0 + s.op1
  · rw [exec_parse_cbufRange past] at ht
    rw [exec_parse_cbufRange (by rwa [op0, op1])] at ht'
    cases ht; cases ht'
    exact ⟨rfl, rfl, rfl, rfl, rfl, rfl, rfl⟩
  have inside := Nat.le_of_not_lt past
  have inside' : s'.op0 + s'.op1 ≤ 256 := by rwa [op0, op1]
  cases parsed : parseLine (s.readBytes s.op0 s.op1) with
  | error i =>
    rw [exec_parse_malformed inside parsed] at ht
    rw [exec_parse_malformed inside' (line ▸ parsed)] at ht'
    cases ht; cases ht'
    exact ⟨rfl, rfl, rfl, rfl, rfl, rfl, rfl⟩
  | ok e =>
    rw [exec_parse_matched inside parsed rfl] at ht
    rw [exec_parse_matched inside' (line ▸ parsed) rfl, line, cken, op0] at ht'
    cases ht; cases ht'
    exact ⟨rfl, rfl, rfl, rfl, rfl, rfl, rfl⟩

end Sys2Proof.Machine
end

section
/-! PROOFS of the exceptions family: nothing stops the block, and a command that fails has no other effect (O4, O20). -/

namespace Sys2Proof.Machine

/-- Settles O4: the due command ends in one of its two ways (R17), and a turn of the host always has a next state. -/
theorem stepNeverStops : Obligations.StepNeverStops := by
  intro s
  cases due : s.engineDue with
  | true =>
    obtain ⟨busy, hw⟩ := s.engineDue_iff.mp due
    obtain ⟨p, hp⟩ := Option.isSome_iff_exists.mp busy
    obtain ⟨t, ran, -⟩ := exec_fails_or_completes (decode p.word) s
    exact ⟨t, (step_of_due hp hw).trans ran⟩
  | false => exact ⟨s.hostTurn, step_of_not_due (State.not_due_of_engineDue due)⟩

/-- Settles O20: `complete` clears ERR, so the command ended by `raise`, which stores nothing (R202, R204). -/
theorem failedCommandChangesNothingElse : Obligations.FailedCommandChangesNothingElse := by
  intro i s t h failed
  obtain ⟨code, info, -, rfl⟩ | ⟨cb, bb, n, wr, r0, r1, r2, r3, -, rfl⟩ := exec_cases h
  · exact s.raise_spec code info
  · rw [State.complete_err] at failed
    cases failed

end Sys2Proof.Machine
end

section
/-! PROOFS of the reset family: the registers, the latch and the buffers after a turn in which the reset input is asserted
(O38, O39). -/

namespace Sys2Proof.Machine

/-- The turn delivers the reset also while a command is pending, as long as the engine is not due (R230, R232). -/
theorem step_reset {s : State} {rest : List BusEvent} (h : s.pending = none ∨ s.wait ≠ 0) (hb : s.bus = .reset :: rest) :
    step s = .next (s.taken rest).applyReset := step_event h hb

/-! ### What a reset leaves behind (R230, R231) -/

section
variable (s : State)

/-- Every location outside the two buffer windows holds its reset value; the windows show the new draw instead. -/
theorem State.valueAt_applyReset {l : Location} (notCbuf : ∀ k, l ≠ .cbufWord k) (notBbuf : ∀ k, l ≠ .bbufWord k) :
    s.applyReset.valueAt l = State.reset.valueAt l := by
  cases l with
  | cbufWord k => exact absurd rfl (notCbuf k)
  | bbufWord k => exact absurd rfl (notBbuf k)
  | id | version | cfg | ctrl | status | cmd | blen | errinfo | arg0 | arg1 | arg2 | res0 | res1 | res2 | res3 | reserved =>
    rfl

@[simp] theorem State.applyReset_pending : s.applyReset.pending = none := rfl

@[simp] theorem State.applyReset_irq : s.applyReset.irq = false := rfl

@[simp] theorem State.applyReset_statusWord : s.applyReset.statusWord = 0 :=
  (s.valueAt_applyReset (l := .status) (fun _ => by simp) (fun _ => by simp)).trans (by decide)

@[simp] theorem State.applyReset_bus : s.applyReset.bus = s.bus := rfl

/-- No byte of CBUF is written after a reset, so each is the draw of the new reset. -/
@[simp] theorem State.byte_applyReset (a : Nat) : s.applyReset.byte a = Config.unwrittenByte (s.epoch + 1) a := rfl

/-- No bit of BBUF is written after a reset, so each is the draw of the new reset. -/
@[simp] theorem State.bit_applyReset (i : Nat) : s.applyReset.bit i = Config.unwrittenBit (s.epoch + 1) i := rfl

end

/-! ### The obligations -/

/-- Settles O38: the fifteen registers lie outside the buffer windows, so a reset gives them the values of `State.reset`. -/
theorem resetRegisters : Obligations.ResetRegisters := by
  refine ⟨⟨by decide, rfl, rfl⟩, fun s rest h hb => ⟨_, step_reset h hb, ?_, State.applyReset_pending _,
    State.applyReset_irq _, State.applyReset_bus _⟩⟩
  refine (List.map_congr_left fun l hl => State.valueAt_applyReset _ ?_ ?_).trans (by decide)
  all_goals
    rintro k rfl
    simp at hl

/-- Settles O39: each register field is that of `State.reset`, and both buffers are empty under the next reset's draw. -/
theorem resetAbandonsCommand : Obligations.ResetAbandonsCommand := by
  intro s rest h hb
  exact ⟨_, step_reset h hb, rfl, rfl, State.applyReset_statusWord _, rfl, rfl, rfl, rfl, rfl, rfl, rfl, rfl, rfl, rfl,
    State.applyReset_pending _, State.applyReset_irq _, State.byte_applyReset _, State.bit_applyReset _,
    State.applyReset_bus _⟩

end Sys2Proof.Machine
end
